-- ==== Sys2Proof/Word.lean ====
section
/-! DEFINITION. The fixed-width words of the block (00_scope.md R13, R17; every value is unsigned). -/

namespace Sys2Proof

/-- A command word, a response word, an accumulator or a credential register: 32 bits (R111, R118, `ACC_W` of R13). -/
abbrev Word := BitVec 32

/-- One bank's sampled, previous or mask byte: 8 bits, bit 0 the bank's lowest pin (R81). -/
abbrev Byte := BitVec 8

/-- A value of the millisecond counter or a timestamp: `TIME_W` = 32 bits (R13, R50). -/
abbrev Time := BitVec 32

/-- A pin index field: `PIN_W` = 5 bits (R13); only values below `N` name a pin (R117). -/
abbrev Pin := BitVec 5

/-- A listener handle: 4 bits (R38). -/
abbrev Handle := BitVec 4

/-- A decoder index field: 3 bits (R112); only values below `NUM_DEC` name a decoder (R116). -/
abbrev DecIdx := BitVec 3

/-- The number of one of the three pin banks (`NUM_BANKS` of R13, R14). -/
abbrev Bank := Fin 3

end Sys2Proof
end

