-- ==== Sys2Proof/Syntax.lean ====
section
/-! DEFINITION. The operations of the opcode table, the fields of a command word, and what the block takes from its
inputs as one instruction (30_encoding.md R110 to R121). -/

namespace Sys2Proof

/-- One constructor per row of spec/opcode_table.json: the five host commands (R113) and the three bank triggers
(R120). Operands have exactly the width of their field (R112), so that every operand an encoding admits is a term and
no other is. -/
inductive Instr where
  /-- REG.ATTACH p, h (R171). -/
  | regAttach (h : Handle) (pa : Pin)
  /-- REG.DETACH p (R178). -/
  | regDetach (pa : Pin)
  /-- DEC.ATTACH Dk, p0, p1 (R208): `pa` is the zero-pin p0, `pb` the one-pin p1. -/
  | decAttach (k : DecIdx) (pb : Pin) (pa : Pin)
  /-- DEC.DETACH Dk (R216). -/
  | decDetach (k : DecIdx)
  /-- DEC.GETID Dk (R222). -/
  | decGetid (k : DecIdx)
  /-- A request on `VEC[0]`: TRIG 0 (R141). -/
  | trig0
  /-- A request on `VEC[1]`: TRIG 1 (R141). -/
  | trig1
  /-- A request on `VEC[2]`: TRIG 2 (R141). -/
  | trig2
  deriving DecidableEq, Repr

/-- What the block takes from its inputs as one instruction: a word of the command port, or the number of the vector
input that carries a trigger request (R111, R120). The two never mix: a host cannot issue a trigger (R120). -/
inductive Fetched where
  | command (w : Word)
  | vector (v : BitVec 2)
  deriving DecidableEq, Repr

/-- The fields of a command word, from bit 31 down (R111). -/
structure CommandFields where
  op   : BitVec 4
  rsv1 : BitVec 12
  hk   : BitVec 4
  rsv2 : BitVec 2
  pb   : Pin
  pa   : Pin
  deriving DecidableEq, Repr

/-- The fields a command is written in (R113): its opcode, its operands, and 0 in every other field. A trigger is not a
command word (R120). -/
def Instr.fields : Instr → Option CommandFields
  | .regAttach h pa    => some { op := 1, rsv1 := 0, hk := h, rsv2 := 0, pb := 0, pa := pa }
  | .regDetach pa      => some { op := 2, rsv1 := 0, hk := 0, rsv2 := 0, pb := 0, pa := pa }
  | .decAttach k pb pa => some { op := 3, rsv1 := 0, hk := k.setWidth 4, rsv2 := 0, pb := pb, pa := pa }
  | .decDetach k       => some { op := 4, rsv1 := 0, hk := k.setWidth 4, rsv2 := 0, pb := 0, pa := 0 }
  | .decGetid k        => some { op := 5, rsv1 := 0, hk := k.setWidth 4, rsv2 := 0, pb := 0, pa := 0 }
  | .trig0             => none
  | .trig1             => none
  | .trig2             => none

end Sys2Proof
end

