-- ==== Sys2Proof/WellFormed.lean ====
section
/-! DEFINITION. Which fields make a legal command word (30_encoding.md R111, R113, R115), check by check. Operands are
exact in their types (Syntax.lean), so what is left to check is the opcode and the fields that must be 0. -/

namespace Sys2Proof

/-- The opcode is assigned: 0x1 to 0x5 (R113, R122). -/
def CommandFields.opAssigned (f : CommandFields) : Bool :=
  f.op == 1 || f.op == 2 || f.op == 3 || f.op == 4 || f.op == 5

/-- RSV1, bits 27:16, is 0 (R111). -/
def CommandFields.rsv1Zero (f : CommandFields) : Bool := f.rsv1 == 0

/-- RSV2, bits 11:10, is 0 (R111). -/
def CommandFields.rsv2Zero (f : CommandFields) : Bool := f.rsv2 == 0

/-- HK, bits 15:12: any handle for REG.ATTACH, 0 for REG.DETACH, bit 15 clear for the decoder commands (R113). -/
def CommandFields.hkLegal (f : CommandFields) : Bool :=
  f.op == 1 || (f.op == 2 && f.hk == 0) || (f.op != 2 && !f.hk.getLsbD 3)

/-- PB, bits 9:5, is used by DEC.ATTACH alone and is 0 elsewhere (R113). -/
def CommandFields.pbLegal (f : CommandFields) : Bool := f.op == 3 || f.pb == 0

/-- PA, bits 4:0, is used by REG.ATTACH, REG.DETACH and DEC.ATTACH, and is 0 in DEC.DETACH and DEC.GETID (R113). -/
def CommandFields.paLegal (f : CommandFields) : Bool := (f.op != 4 && f.op != 5) || f.pa == 0

/-- A legal command word's fields (R113, R115). -/
def CommandFields.wellFormed (f : CommandFields) : Bool :=
  f.opAssigned && f.rsv1Zero && f.rsv2Zero && f.hkLegal && f.pbLegal && f.paLegal

/-- An instruction is well formed when its fields are those of a legal word; a bank trigger has no fields to check. -/
def Instr.wellFormed (i : Instr) : Bool :=
  match i.fields with
  | some f => f.wellFormed
  | none => true

end Sys2Proof
end

