-- ==== Sys2Proof/Decode.lean ====
section
/-! DEFINITION. Decoding of command words and vector numbers (30_encoding.md R111 to R122), total and rejecting by
name, and the encoder (R124). -/

namespace Sys2Proof

/-- Why a fetched word is no instruction. The block itself distinguishes none of these: every illegal command word is
answered ILLEGAL (R115); the names are for the reader. -/
inductive DecodeError where
  /-- OP is 0x0 or 0x6 to 0xF (R115, R122). -/
  | unassignedOpcode
  /-- A reserved or unused field is not 0 (R115). -/
  | reservedFieldSet
  /-- Vector number 3: no input carries it (R120). -/
  | noSuchVector
  deriving DecidableEq, Repr

/-- OP = cmd[31:28] (R112). -/
def opField (cmd : Word) : BitVec 4 := cmd.extractLsb' 28 4

/-- H = HK = cmd[15:12] (R112). -/
def handleField (cmd : Word) : Handle := cmd.extractLsb' 12 4

/-- K = cmd[14:12] (R112). -/
def decoderField (cmd : Word) : DecIdx := cmd.extractLsb' 12 3

/-- PB = cmd[9:5] (R112). -/
def pbField (cmd : Word) : Pin := cmd.extractLsb' 5 5

/-- PA = cmd[4:0] (R112). -/
def paField (cmd : Word) : Pin := cmd.extractLsb' 0 5

/-- All six fields of a command word (R111, R112). -/
def commandFields (cmd : Word) : CommandFields where
  op   := opField cmd
  rsv1 := cmd.extractLsb' 16 12
  hk   := handleField cmd
  rsv2 := cmd.extractLsb' 10 2
  pb   := pbField cmd
  pa   := paField cmd

/-- A row of the match and mask table: the word is the row's command exactly when `(cmd & mask) = match` (R114). -/
def rowMatches (cmd mask value : Word) : Bool := (cmd &&& mask) == value

/-- `decode(cmd)` of R115: the first row of R114 that the word matches; otherwise the word is illegal. -/
def decodeCommand (cmd : Word) : Except DecodeError Instr :=
  if rowMatches cmd 0xFFFF0FE0 0x10000000 then .ok (.regAttach (handleField cmd) (paField cmd))
  else if rowMatches cmd 0xFFFFFFE0 0x20000000 then .ok (.regDetach (paField cmd))
  else if rowMatches cmd 0xFFFF8C00 0x30000000 then
    .ok (.decAttach (decoderField cmd) (pbField cmd) (paField cmd))
  else if rowMatches cmd 0xFFFF8FFF 0x40000000 then .ok (.decDetach (decoderField cmd))
  else if rowMatches cmd 0xFFFF8FFF 0x50000000 then .ok (.decGetid (decoderField cmd))
  else if (commandFields cmd).opAssigned then .error .reservedFieldSet
  else .error .unassignedOpcode

/-- The vector rows: `VEC[b]` always runs TRIG b, and vector number 3 does not exist (R120, R149). -/
def decodeVector (v : BitVec 2) : Except DecodeError Instr :=
  if v == 0 then .ok .trig0
  else if v == 1 then .ok .trig1
  else if v == 2 then .ok .trig2
  else .error .noSuchVector

/-- The decoder: total on every command word and every vector number. -/
def decode : Fetched → Except DecodeError Instr
  | .command w => decodeCommand w
  | .vector v  => decodeVector v

/-- The word of a command or the number of a vector, by the forms of R124 and the vector rows of R120. -/
def encode : Instr → Fetched
  | .regAttach h pa    => .command (0x10000000 ||| (h.setWidth 32 <<< 12) ||| pa.setWidth 32)
  | .regDetach pa      => .command (0x20000000 ||| pa.setWidth 32)
  | .decAttach k pb pa =>
      .command (0x30000000 ||| (k.setWidth 32 <<< 12) ||| (pb.setWidth 32 <<< 5) ||| pa.setWidth 32)
  | .decDetach k       => .command (0x40000000 ||| (k.setWidth 32 <<< 12))
  | .decGetid k        => .command (0x50000000 ||| (k.setWidth 32 <<< 12))
  | .trig0             => .vector 0
  | .trig1             => .vector 1
  | .trig2             => .vector 2

/-- What the block takes when the opcode table gives it the bits `w` of a row `nbits` wide: a row of 32 bits is a
command word, carried whole (R83, R123); the vector rows are 2 bits (R120), which is one byte in whole bytes. -/
def tableFetched (nbits w : Nat) : Fetched :=
  if nbits < 32 then .vector (BitVec.ofNat 2 w) else .command (BitVec.ofNat 32 w)

/-- The instruction the decoder reads from a table row's bits; none where it rejects them. -/
def decodeTableWord (nbits w : Nat) : Option Instr :=
  match decode (tableFetched nbits w) with
  | .ok i => some i
  | .error _ => none

end Sys2Proof
end

