-- ==== Sys2Proof/Config.lean ====
section
/-! DEFINITION. The block's implementation parameters (00_scope.md R13): every row marked OPEN, as data. -/

namespace Sys2Proof

/-- The OPEN parameters of R13, with the ranges R13 allows. A model takes them as an argument; here they stand in the
state's field `cfg`, which no step writes, so a statement about every state is a statement about every configuration.
The fixed parameters (`NUM_BANKS` 3, `CRED_W` 26, the widths of Word.lean) are in the types. -/
structure Config where
  /-- `BANK_WIDTH[0]`: pins in bank 0. -/
  width0 : Nat
  /-- `BANK_WIDTH[1]`: pins in bank 1. -/
  width1 : Nat
  /-- `BANK_WIDTH[2]`: pins in bank 2. -/
  width2 : Nat
  /-- `NUM_DEC`: Wiegand decoder instances. -/
  numDec : Nat
  /-- `T_RD`: the read timeout, in milliseconds. -/
  tRd : Time
  /-- `T_ST`: the credential staleness threshold, in milliseconds. -/
  tSt : Time
  /-- `SETTLE_MS`: the settle pause of DEC.ATTACH, in milliseconds. -/
  settleMs : Time
  width0_range : 1 ≤ width0 ∧ width0 ≤ 8 := by decide
  width1_range : 1 ≤ width1 ∧ width1 ≤ 8 := by decide
  width2_range : 1 ≤ width2 ∧ width2 ≤ 8 := by decide
  numDec_range : 1 ≤ numDec ∧ numDec ≤ 8 := by decide
  deriving DecidableEq, Repr

/-- The reference configuration (92_eei_decisions.md D35): the one of the spec's test vectors. No rule depends on its
values, and no statement of this model does. -/
def Config.reference : Config where
  width0 := 8
  width1 := 6
  width2 := 6
  numDec := 2
  tRd := 100
  tSt := 1000
  settleMs := 10

end Sys2Proof
end

