-- ==== Sys2Proof/Machine/State.lean ====
section
/-! DEFINITION. The state of the block and of its ports (10_state.md R30 to R60), the reasons a step can stop, and the
state after power-on (R59, 70_reset_and_hazards.md R280). -/

namespace Sys2Proof.Machine

/-- Why a step ends in a fault. -/
inductive Fault where
  /-- Raised by `step` alone, from a state whose `ASSERT_FAIL` flag is set: "A model should treat a state with
  `ASSERT_FAIL = 1` as a fault: never final, and refuting every claim" (R244, I11). Safe: no run from reset reaches
  such a state (R60 INV1). -/
  | assertFailed
  deriving DecidableEq, Repr

/-- Why a step is refused. No meaning of this model refuses. -/
inductive Refusal where
  /-- Raised by `exec` for an instruction with no meaning yet. Every instruction has one, so nothing raises it. Safe. -/
  | notModelled (mnemonic : String)
  deriving DecidableEq, Repr

/-- An event of the output stream `EVT`. The only event is `EXT(e, p, level)` (R53, R152). -/
inductive Event where
  /-- External listener `e` is told of pin `p` at `level` (true is high). -/
  | ext (e : BitVec 3) (p : Pin) (level : Bool)
  deriving DecidableEq, Repr

/-- The phases of the multi-phase commands after their first one (R208, R216). The first phase, A0 or D0, runs when
the command is accepted. -/
inductive Phase where
  /-- DD1 to DD3: the implicit detach at the start of DEC.ATTACH (R208). -/
  | dd1
  | dd2
  | dd3
  /-- A1 to A6 of DEC.ATTACH (R208). -/
  | a1
  | a2
  | a3
  | a4
  | a5
  | a6
  /-- D1 to D3 of DEC.DETACH (R216). -/
  | d1
  | d2
  | d3
  deriving DecidableEq, Repr

/-- What the sequencer holds while a command is in progress: `BUSY(cmd, phase, t0)` (R48), and the two registration
results that R208 carries from phases A2 and A3 to phase A6. -/
structure Command where
  /-- The command word being executed. -/
  cmd : Word
  /-- The next phase. -/
  phase : Phase
  /-- The time phase A4 read; 0 before it (no rule reads it then). -/
  t0 : Time
  /-- `ok0` of R208: the zero-pin was registered; false before phase A2. -/
  ok0 : Bool
  /-- `ok1` of R208: the one-pin was registered; false before phase A3. -/
  ok1 : Bool
  deriving DecidableEq, Repr

/-- `SEQ`, the command sequencer (R48). -/
inductive Seq where
  | idle
  | busy (c : Command)
  deriving DecidableEq, Repr

/-- The registers of one Wiegand decoder instance (R40 to R46; S6 to S13 of R30). -/
structure Decoder where
  /-- `ATTACHED[k]` (R40). -/
  attached : Bool
  /-- `P0[k]`, the zero-pin (R41). -/
  p0 : Pin
  /-- `P1[k]`, the one-pin (R41). -/
  p1 : Pin
  /-- `BITCNT[k]`, 5 bits (R42). -/
  bitcnt : BitVec 5
  /-- `ACC[k]` (R43). -/
  acc : Word
  /-- `TLAST[k]` (R44). -/
  tlast : Time
  /-- `CRED[k]` (R45). -/
  cred : Word
  /-- `TCRED[k]` (R46). -/
  tcred : Time
  deriving DecidableEq, Repr

/-- A decoder after power-on (R59). -/
def Decoder.reset : Decoder where
  attached := false
  p0 := 0
  p1 := 0
  bitcnt := 0
  acc := 0
  tlast := 0
  cred := 0
  tcred := 0

/-- What comes from outside at one step boundary, or which agent moves (R268; the `@` lines of R124). The environment
may do any of these between any two steps, in any order (R49, R50, R250, R254), so a run is described by a list of
them, and a statement about every state is a statement about every such list (DESIGN CHOICE, log entry 3). -/
inductive Input where
  /-- `@PIN b=v`: the environment sets `PIN_IN[b]` (R49). -/
  | pins (b : Bank) (levels : Byte)
  /-- `@TIME t`: the environment sets `TIME` (R50). -/
  | time (t : Time)
  /-- `@TRIG b`: the environment presents a request on `VEC[b]` (R51). `stray` is what the bits of `PIN_IN[b]` that have
  no pin behind them read as at this sample: any value, drawn afresh (R49, I6). -/
  | request (b : Bank) (stray : Byte)
  /-- The host presents a command word on the command port (R52). It is held, and not lost, until the block accepts it
  (R91). -/
  | command (w : Word)
  /-- Nothing comes from outside: the command sequencer takes its next phase (R90). -/
  | sequencer
  deriving DecidableEq, Repr

/-- The state: the elements S0 to S14 of R30, the input and output ports of R49 to R54, the parameters of R13, and the
model's two own fields, `script` and `assertFail`. The pin tables have one entry for each 5-bit index and the decoder
table one for each 3-bit index; the entries at or above `N` and `NUM_DEC` do not exist in the block, no rule reads or
writes them, and they stay at their reset value. -/
structure State where
  /-- The OPEN parameters (R13). No step writes them. -/
  cfg : Config
  /-- `PIN_IN[b]`, the live levels (R49). An input. -/
  pinIn : Vector Byte 3
  /-- `TIME` (R50). An input. -/
  time : Time
  /-- What is still to come from outside, the next first. The model's own field. -/
  script : List Input
  /-- S0 `PREV[b]`, the previous sample (R32). -/
  prev : Vector Byte 3
  /-- S1 `MASK[b]`, the active mask (R33). -/
  mask : Vector Byte 3
  /-- S2 `TRIG_EN[b]`, the trigger enable (R34). -/
  trigEn : Vector Bool 3
  /-- S3 `LVALID[p]` (R36). -/
  lvalid : Vector Bool 32
  /-- S4 `LISTENER[p]` (R36, R38). -/
  listener : Vector Handle 32
  /-- S5 `PULLUP[p]` (R39). -/
  pullup : Vector Bool 32
  /-- S6 to S13: the decoder registers (R40 to R46). -/
  dec : Vector Decoder 8
  /-- S14 `SEQ` (R48). -/
  seq : Seq
  /-- The response port (R52, R118): every response word placed on it since power-on, the oldest first. -/
  resp : List Word
  /-- `EVT`, the output event stream (R53), the oldest event first. -/
  evt : List Event
  /-- `ASSERT_FAIL`, the model-level debug flag (R244). -/
  assertFail : Bool
  deriving DecidableEq, Repr

/-- Power-on with the given parameters, live pin levels and time (R59, R280): `PREV[b]` is the sampled level of each
bank, and every other element is 0, empty or IDLE. -/
def State.powerOn (cfg : Config) (pins : Vector Byte 3) (now : Time) : State where
  cfg := cfg
  pinIn := pins
  time := now
  script := []
  prev := pins
  mask := Vector.replicate 3 0
  trigEn := Vector.replicate 3 false
  lvalid := Vector.replicate 32 false
  listener := Vector.replicate 32 0
  pullup := Vector.replicate 32 false
  dec := Vector.replicate 8 Decoder.reset
  seq := .idle
  resp := []
  evt := []
  assertFail := false

/-- The state after reset: power-on in the reference configuration (D35) with every line high and `TIME = 0`, the start
state of the spec's programs P1 to P5 (95_test_vectors.md section 3). The parameters, the levels and the time are the
environment's: DESIGN CHOICE, log entries 1 and 2. -/
def State.reset : State := State.powerOn Config.reference (Vector.replicate 3 0xFF) 0

end Sys2Proof.Machine
end

