-- ==== Sys2Proof/Machine/Operands.lean ====
section
/-! DEFINITION. The operands of the operations: pin indices and their bank and bit (00_scope.md R13 to R15), handles
(10_state.md R38), decoder indices (30_encoding.md R116), single bits of a byte (R17), and time differences (R19, R197). -/

namespace Sys2Proof.Machine

/-- `BANK_WIDTH[b]` (R13). -/
def bankWidth (c : Config) (b : Bank) : Nat :=
  match b with
  | 0 => c.width0
  | 1 => c.width1
  | 2 => c.width2

/-- `BASE[b]`, the lowest logical index of bank b: `BASE[0] = 0` and `BASE[b+1] = BASE[b] + BANK_WIDTH[b]` (R13). -/
def bankBase (c : Config) (b : Bank) : Nat :=
  match b with
  | 0 => 0
  | 1 => c.width0
  | 2 => c.width0 + c.width1

/-- `N`, the number of addressable pins (R13). -/
def pinCount (c : Config) : Nat := c.width0 + c.width1 + c.width2

/-- A pin index is valid exactly when it is below `N` (R15). -/
def validPin (c : Config) (p : Pin) : Bool := decide (p.toNat < pinCount c)

/-- `bank(p)`: the bank that owns a valid index (R15). -/
def bankOf (c : Config) (p : Pin) : Bank :=
  if p.toNat < c.width0 then 0
  else if p.toNat < c.width0 + c.width1 then 1
  else 2

/-- `bit(p) = p - BASE[bank(p)]` (R15). -/
def bitOf (c : Config) (p : Pin) : Nat := p.toNat - bankBase c (bankOf c p)

/-- The logical index `BASE[b] + i` that bit i of bank b stands for (R14). -/
def pinAt (c : Config) (b : Bank) (i : Nat) : Pin := BitVec.ofNat 5 (bankBase c b + i)

/-- The byte with bit i alone set. -/
def bitMask (i : Nat) : Byte := 1#8 <<< i

/-- A byte with bit i set to 1. -/
def setBit (m : Byte) (i : Nat) : Byte := m ||| bitMask i

/-- A byte with bit i cleared to 0. -/
def clearBit (m : Byte) (i : Nat) : Byte := m &&& ~~~(bitMask i)

/-- The bits of bank b's byte that have a pin behind them: bits i with `i < BANK_WIDTH[b]` (R14). -/
def pinBits (c : Config) (b : Bank) : Byte := BitVec.ofNat 8 (2 ^ bankWidth c b - 1)

/-- A handle names an external listener when `H[3] = 1` (R38). -/
def handleIsExternal (h : Handle) : Bool := h.getLsbD 3

/-- `H[2:0]`: the decoder or external listener a handle names (R38). -/
def handleIndex (h : Handle) : DecIdx := h.extractLsb' 0 3

/-- `HDEC(k)`, the handle of decoder k (R38). -/
def decoderHandle (k : DecIdx) : Handle := k.setWidth 4

/-- The external handle `8 + e` (R38, R124). -/
def externalHandle (e : BitVec 3) : Handle := 8 ||| e.setWidth 4

/-- A decoder index names an instance when it is below `NUM_DEC` (R58, R116). -/
def validDecoder (c : Config) (k : DecIdx) : Bool := decide (k.toNat < c.numDec)

/-- A handle is valid when it names an external listener or an existing decoder (R38). -/
def validHandle (c : Config) (h : Handle) : Bool := handleIsExternal h || validDecoder c (handleIndex h)

/-- The wraparound difference of two timestamps, modulo `2^TIME_W` (R19). -/
def elapsed (now since : Time) : Time := now - since

/-- A time difference exceeds a limit when it is strictly above it (R197). -/
def exceeds (now since limit : Time) : Bool := decide (limit < elapsed now since)

end Sys2Proof.Machine
end

