-- ==== Sys2Proof/Machine/Flags.lean ====
section
/-! DEFINITION. Status bits and output ports. The block has no condition codes (10_state.md R55); its status is the
sequencer's busy state, the STATUS field of each response (30_encoding.md R118) and the ports of R54. -/

namespace Sys2Proof.Machine

/-- The STATUS codes that are produced (R118). `0b11` is never produced, so it has no constructor. -/
inductive Status where
  | ok
  | rejected
  | illegal
  deriving DecidableEq, Repr

/-- `STATUS`: `0b00` OK, `0b01` FALSE, `0b10` ILLEGAL (R118). -/
def statusCode (st : Status) : BitVec 2 :=
  match st with
  | .ok => 0
  | .rejected => 1
  | .illegal => 2

/-- A response word: STATUS in 31:30, 0 in 29:26, DATA in 25:0 (R118). -/
def responseWord (st : Status) (data : BitVec 26) : Word := statusCode st ++ 0#4 ++ data

/-- `DATA` of DEC.ATTACH: `{ok1, ok0}` (R119, R208). -/
def attachData (ok0 ok1 : Bool) : BitVec 26 := (BitVec.ofBool ok1 ++ BitVec.ofBool ok0).setWidth 26

/-- The port is busy: a command is in progress (R48, R55). -/
def State.isBusy (s : State) : Bool :=
  match s.seq with
  | .idle => false
  | .busy _ => true

/-- `PCMSK_OUT[b]` shows `MASK[b]` (R35, R54). -/
def State.pcmskOut (s : State) (b : Bank) : Byte := s.mask[b]

/-- `TRIG_EN_OUT[b]` shows `TRIG_EN[b]` (R35, R54). -/
def State.trigEnOut (s : State) (b : Bank) : Bool := s.trigEn[b]

/-- `PULLUP_OUT[p]` shows `PULLUP[p]` (R39, R54). -/
def State.pullupOut (s : State) (p : Pin) : Bool := s.pullup[p.toNat]

end Sys2Proof.Machine
end

