-- ==== Sys2Proof/Machine/Ops.lean ====
section
/-! DEFINITION. The named operations over the state: register reads and writes, the primitives `SamplePins`, `Now`,
`Emit` and `respond` (00_scope.md R20), the registry bodies that REG.* and DEC.* share (41_listener_registry.md R171,
R178), the admission of commands (20_memory.md R91) and of bank triggers (60_exceptions.md R250 to R259).

The block raises no exception, trap or fault (R21, R240): there is no saved pc, status or mode to model. What takes an
exception's place is the bank trigger; `State.admitTrigger` is its one shared entry, and there is no return (R258). -/

namespace Sys2Proof.Machine

/-! ## Register reads -/

/-- `PREV[b]`. -/
def State.prevAt (s : State) (b : Bank) : Byte := s.prev[b]

/-- `MASK[b]`. -/
def State.maskAt (s : State) (b : Bank) : Byte := s.mask[b]

/-- `TRIG_EN[b]`. -/
def State.trigEnAt (s : State) (b : Bank) : Bool := s.trigEn[b]

/-- `LVALID[p]`. -/
def State.lvalidAt (s : State) (p : Pin) : Bool := s.lvalid[p.toNat]

/-- `LISTENER[p]`. -/
def State.listenerAt (s : State) (p : Pin) : Handle := s.listener[p.toNat]

/-- `PULLUP[p]`. -/
def State.pullupAt (s : State) (p : Pin) : Bool := s.pullup[p.toNat]

/-- The registers of decoder k. -/
def State.decAt (s : State) (k : DecIdx) : Decoder := s.dec[k.toNat]

/-! ## Register writes -/

/-- `PIN_IN[b]` becomes v: an act of the environment (R49). -/
def State.setPinIn (s : State) (b : Bank) (v : Byte) : State := { s with pinIn := s.pinIn.set b v }

/-- `TIME` becomes t: an act of the environment (R50). -/
def State.setTime (s : State) (t : Time) : State := { s with time := t }

/-- What is still to come from outside. -/
def State.setScript (s : State) (l : List Input) : State := { s with script := l }

/-- `PREV[b] <- v`. -/
def State.setPrev (s : State) (b : Bank) (v : Byte) : State := { s with prev := s.prev.set b v }

/-- `MASK[b] <- v`. -/
def State.setMask (s : State) (b : Bank) (v : Byte) : State := { s with mask := s.mask.set b v }

/-- `TRIG_EN[b] <- v`. -/
def State.setTrigEn (s : State) (b : Bank) (v : Bool) : State := { s with trigEn := s.trigEn.set b v }

/-- `LVALID[p] <- v`. -/
def State.setLvalid (s : State) (p : Pin) (v : Bool) : State := { s with lvalid := s.lvalid.set p.toNat v }

/-- `LISTENER[p] <- h`. -/
def State.setListener (s : State) (p : Pin) (h : Handle) : State := { s with listener := s.listener.set p.toNat h }

/-- `PULLUP[p] <- v`. -/
def State.setPullup (s : State) (p : Pin) (v : Bool) : State := { s with pullup := s.pullup.set p.toNat v }

/-- The registers of decoder k become d. -/
def State.setDec (s : State) (k : DecIdx) (d : Decoder) : State := { s with dec := s.dec.set k.toNat d }

/-- `SEQ <- q`. -/
def State.setSeq (s : State) (q : Seq) : State := { s with seq := q }

/-- A word is placed on the response port. -/
def State.pushResp (s : State) (w : Word) : State := { s with resp := s.resp ++ [w] }

/-- `ASSERT_FAIL <- 1` (R150). -/
def State.raiseAssert (s : State) : State := { s with assertFail := true }

/-! ## The primitives of R20 -/

/-- `SamplePins(b)`: all 8 bits of `PIN_IN[b]` at one instant (R20, R85). -/
def State.samplePins (s : State) (b : Bank) : Byte := s.pinIn[b]

/-- `Now()`: the value of `TIME`, the same at every call within one step (R20, R50). -/
def State.now (s : State) : Time := s.time

/-- `Emit(event)`: one event is appended to `EVT` (R20, R53). -/
def State.emit (s : State) (e : Event) : State := { s with evt := s.evt ++ [e] }

/-- `respond(status, data)`: the response word is placed on the response port and `SEQ <- IDLE` (R118). -/
def State.respond (s : State) (st : Status) (data : BitVec 26) : State :=
  (s.pushResp (responseWord st data)).setSeq .idle

/-- The bits of `PIN_IN[b]` with no pin behind them take the value drawn for this sample; the others keep their level
(R49). -/
def State.redrawStray (s : State) (b : Bank) (stray : Byte) : State :=
  let real := pinBits s.cfg b
  s.setPinIn b ((s.samplePins b &&& real) ||| (stray &&& ~~~real))

/-! ## The registry bodies -/

/-- `MASK[b][i] <- 0`, and `TRIG_EN[b] <- 0` if the mask is now empty (R171, R178). -/
def State.deactivate (s : State) (b : Bank) (i : Nat) : State :=
  let t := s.setMask b (clearBit (s.maskAt b) i)
  if t.maskAt b = 0 then t.setTrigEn b false else t

/-- The implicit detach of the registration p already has (R171). -/
def State.implicitDetach (s : State) (p : Pin) : State :=
  if s.lvalidAt p then (s.setLvalid p false).deactivate (bankOf s.cfg p) (bitOf s.cfg p) else s

/-- The recording half of R171: handle, valid bit, mask bit, and the trigger enable if this is the bank's first active
pin. -/
def State.register (s : State) (p : Pin) (h : Handle) : State :=
  let b := bankOf s.cfg p
  let first := s.maskAt b == 0
  let t := ((s.setListener p h).setLvalid p true).setMask b (setBit (s.maskAt b) (bitOf s.cfg p))
  if first then t.setTrigEn b true else t

/-- Whether REG_ATTACH_BODY succeeds: the pin and the handle are valid (R171). -/
def State.attachOk (s : State) (p : Pin) (h : Handle) : Bool := validPin s.cfg p && validHandle s.cfg h

/-- `REG_ATTACH_BODY(p, H)`: R171 without its `respond`. Its result is `State.attachOk`. -/
def State.attachBody (s : State) (p : Pin) (h : Handle) : State :=
  if s.attachOk p h then (s.implicitDetach p).register p h else s

/-- `REG_DETACH_BODY(p)`: R178 without its `respond`. -/
def State.detachBody (s : State) (p : Pin) : State :=
  if validPin s.cfg p then
    ((s.setLvalid p false).setListener p 0).deactivate (bankOf s.cfg p) (bitOf s.cfg p)
  else s

/-! ## Admission -/

/-- The command port: a single-phase command runs when the port is free. While another command is in progress the
command is held, and nothing happens (R48, R91). -/
def State.onIdle (s : State) (run : State → State) : State :=
  match s.seq with
  | .idle => run s
  | .busy _ => s

/-- The command port for a multi-phase command: its first phase runs when the port is free; its next phase runs when
it is itself the command in progress; while another is, it is held (R48, R90, R91). -/
def State.onPort (s : State) (cmd : Fetched) (first : State → State) (next : Command → State → State) : State :=
  match s.seq with
  | .idle => first s
  | .busy c => if cmd = .command c.cmd then next c s else s

/-- The command in progress goes on to phase ph at the next step of the sequencer (R90). -/
def State.goto (s : State) (c : Command) (ph : Phase) : State := s.setSeq (.busy { c with phase := ph })

/-- A multi-phase command is accepted: the sequencer holds its word and its next phase (R48). -/
def State.begin (s : State) (cmd : Fetched) (ph : Phase) : State :=
  match cmd with
  | .command w => s.setSeq (.busy { cmd := w, phase := ph, t0 := 0, ok0 := false, ok1 := false })
  | .vector _ => s

/-- An illegal command word: no state changes but the response ILLEGAL (R115). A vector number that no input carries
(R120) has no effect. -/
def State.rejectFetched (s : State) (f : Fetched) : State :=
  match f with
  | .command _ => s.respond .illegal 0
  | .vector _ => s

/-- Trigger entry: a request on `VEC[b]` is taken only while `TRIG_EN[b] = 1`, and has no effect otherwise (R250,
R251). Taking it saves nothing, changes no mode and uses no stack (R256); when the handler ends nothing is restored
(R258). -/
def State.admitTrigger (s : State) (b : Bank) (handler : State → State) : State :=
  if s.trigEnAt b then handler s else s

end Sys2Proof.Machine
end

