-- ==== Sys2Proof/Machine/Wiegand.lean ====
section
/-! DEFINITION. The Wiegand Decoder (42_wiegand_decoder.md): HANDLE and SHIFT_IN, the reset actions, and the commands
DEC.ATTACH, DEC.DETACH and DEC.GETID. -/

namespace Sys2Proof.Machine

/-! ## Reset actions -/

/-- `RESET_PROGRESS`: `BITCNT <- 0` and `ACC <- 0`; `TLAST` is kept (R205). -/
def Decoder.resetProgress (d : Decoder) : Decoder := { d with bitcnt := 0, acc := 0 }

/-- `RESET_COMPLETED`: `CRED <- 0`; `TCRED` is kept (R206). -/
def Decoder.resetCompleted (d : Decoder) : Decoder := { d with cred := 0 }

/-! ## Interrupt context -/

/-- The timeout discard at the start of `SHIFT_IN` (R198, R199). -/
def Decoder.dropStalled (d : Decoder) (tRd now : Time) : Decoder :=
  if exceeds now d.tlast tRd then d.resetProgress else d

/-- One bit is shifted in from the right (R198, R200). -/
def Decoder.accumulate (d : Decoder) (now : Time) (bit : Bool) : Decoder :=
  { d with acc := (d.acc <<< 1) ||| (BitVec.ofBool bit).setWidth 32, bitcnt := d.bitcnt + 1, tlast := now }

/-- At the 26th bit: promotion, unless the last promoted credential is too recent, and back to Idle (R198, R201). -/
def Decoder.complete (d : Decoder) (tSt now : Time) : Decoder :=
  if d.bitcnt = 26 then
    if exceeds now d.tcred tSt then { d with cred := d.acc, tcred := now }.resetProgress
    else d.resetProgress
  else d

/-- `SHIFT_IN(k, bit)` on decoder k's registers (R198). -/
def Decoder.shiftIn (d : Decoder) (tRd tSt now : Time) (bit : Bool) : Decoder :=
  ((d.dropStalled tRd now).accumulate now bit).complete tSt now

/-- `HANDLE(k, p, level)` on decoder k's registers: only a falling edge on an assigned pin of an attached decoder is a
bit, and the zero-pin is tested first (R191). -/
def Decoder.handle (d : Decoder) (tRd tSt now : Time) (p : Pin) (level : Bool) : Decoder :=
  if !d.attached then d
  else if level then d
  else if p = d.p0 then d.shiftIn tRd tSt now false
  else if p = d.p1 then d.shiftIn tRd tSt now true
  else d

/-- `HANDLE(k, p, level)` (R191). -/
def State.handle (s : State) (k : DecIdx) (p : Pin) (level : Bool) : State :=
  s.setDec k ((s.decAt k).handle s.cfg.tRd s.cfg.tSt s.now p level)

/-! ## Steps shared by DEC.ATTACH and DEC.DETACH -/

/-- RESET_PROGRESS and RESET_COMPLETED of decoder k (phase A6 of R208). -/
def State.resetDecoder (s : State) (k : DecIdx) : State := s.setDec k (s.decAt k).resetProgress.resetCompleted

/-- Both resets, and the pin assignments cleared (phase DD3 of R208, phase D3 of R216). -/
def State.unbindDecoder (s : State) (k : DecIdx) : State :=
  s.setDec k { (s.decAt k).resetProgress.resetCompleted with p0 := 0, p1 := 0, attached := false }

/-- `P0[k] <- pa; P1[k] <- pb; ATTACHED[k] <- 1` (phase A1 of R208). -/
def State.bindDecoder (s : State) (k : DecIdx) (pa pb : Pin) : State :=
  s.setDec k { s.decAt k with p0 := pa, p1 := pb, attached := true }

/-- `if p < N: PULLUP[p] <- 1` (phase A4 of R208). -/
def State.pullUp (s : State) (p : Pin) : State := if validPin s.cfg p then s.setPullup p true else s

/-! ## DEC.ATTACH -/

/-- Phase A0 of DEC.ATTACH (R208). -/
def decAttachFirst (k : DecIdx) (pb pa : Pin) (s : State) : State :=
  if validDecoder s.cfg k then
    s.begin (encode (.decAttach k pb pa)) (if (s.decAt k).attached then .dd1 else .a1)
  else s.respond .rejected 0

/-- The later phases of DEC.ATTACH, each one atomic main-loop step (R208). Phase A5 is taken again at every step until
the settle pause has passed (R90, R212). The phases of DEC.DETACH are none of this command's. -/
def decAttachNext (k : DecIdx) (pb pa : Pin) (c : Command) (s : State) : State :=
  match c.phase with
  | .dd1 => (s.detachBody (s.decAt k).p0).goto c .dd2
  | .dd2 => (s.detachBody (s.decAt k).p1).goto c .dd3
  | .dd3 => (s.unbindDecoder k).goto c .a1
  | .a1 => (s.bindDecoder k pa pb).goto c .a2
  | .a2 => (s.attachBody pa (decoderHandle k)).goto { c with ok0 := s.attachOk pa (decoderHandle k) } .a3
  | .a3 => (s.attachBody pb (decoderHandle k)).goto { c with ok1 := s.attachOk pb (decoderHandle k) } .a4
  | .a4 => ((s.pullUp pa).pullUp pb).goto { c with t0 := s.now } .a5
  | .a5 => if s.cfg.settleMs ≤ elapsed s.now c.t0 then s.goto c .a6 else s
  | .a6 => (s.resetDecoder k).respond .ok (attachData c.ok0 c.ok1)
  | .d1 => s
  | .d2 => s
  | .d3 => s

/-- DEC.ATTACH: attach decoder k to the zero-pin pa and the one-pin pb (R208). -/
def execDecAttach (k : DecIdx) (pb pa : Pin) (s : State) : Host.Outcome State Fault Refusal :=
  .next (s.onPort (encode (.decAttach k pb pa)) (decAttachFirst k pb pa) (decAttachNext k pb pa))

/-! ## DEC.DETACH -/

/-- Phase D0 of DEC.DETACH (R216). -/
def decDetachFirst (k : DecIdx) (s : State) : State :=
  if validDecoder s.cfg k then
    s.begin (encode (.decDetach k)) (if (s.decAt k).attached then .d1 else .d3)
  else s.respond .rejected 0

/-- The later phases of DEC.DETACH, each one atomic main-loop step (R216). The phases of DEC.ATTACH are none of this
command's. -/
def decDetachNext (k : DecIdx) (c : Command) (s : State) : State :=
  match c.phase with
  | .d1 => (s.detachBody (s.decAt k).p0).goto c .d2
  | .d2 => (s.detachBody (s.decAt k).p1).goto c .d3
  | .d3 => (s.unbindDecoder k).respond .ok 0
  | .dd1 => s
  | .dd2 => s
  | .dd3 => s
  | .a1 => s
  | .a2 => s
  | .a3 => s
  | .a4 => s
  | .a5 => s
  | .a6 => s

/-- DEC.DETACH: unregister decoder k's pins, reset its state and clear its pin assignments (R216). -/
def execDecDetach (k : DecIdx) (s : State) : Host.Outcome State Fault Refusal :=
  .next (s.onPort (encode (.decDetach k)) (decDetachFirst k) (decDetachNext k))

/-! ## DEC.GETID -/

/-- The credential DEC.GETID returns: the stored one, or 0 when its age exceeds the staleness threshold (R222). -/
def Decoder.fetched (d : Decoder) (tSt now : Time) : Word := if exceeds now d.tcred tSt then 0 else d.cred

/-- The whole of DEC.GETID, one atomic step (R222). -/
def decGetidBody (k : DecIdx) (s : State) : State :=
  if validDecoder s.cfg k then
    (s.setDec k (s.decAt k).resetCompleted).respond .ok (((s.decAt k).fetched s.cfg.tSt s.now).setWidth 26)
  else s.respond .rejected 0

/-- DEC.GETID: return decoder k's last completed credential if it is not stale, or 0, and consume it (R222). -/
def execDecGetid (k : DecIdx) (s : State) : Host.Outcome State Fault Refusal := .next (s.onIdle (decGetidBody k))

end Sys2Proof.Machine
end

