-- ==== Sys2Proof/Machine/Multiplexer.lean ====
section
/-! DEFINITION. The Edge Multiplexer (40_edge_multiplexer.md): TRIG b and DISPATCH. -/

namespace Sys2Proof.Machine

/-- `DISPATCH(p, level)`: the listener registered for pin p is invoked (R150). With no listener the pin is skipped and
the debug flag raised; no run from reset reaches that branch (R153). -/
def State.dispatch (s : State) (p : Pin) (level : Bool) : State :=
  if s.lvalidAt p then
    if handleIsExternal (s.listenerAt p) then s.emit (.ext (handleIndex (s.listenerAt p)) p level)
    else s.handle (handleIndex (s.listenerAt p)) p level
  else s.raiseAssert

/-- The loop of R141 over the given bit numbers: each changed bit is dispatched with its sampled level. -/
def State.dispatchBits (s : State) (b : Bank) (cur changed : Byte) : List Nat → State
  | [] => s
  | i :: rest =>
    State.dispatchBits
      (if changed.getLsbD i then s.dispatch (pinAt s.cfg b i) (cur.getLsbD i) else s) b cur changed rest

/-- `changed = MASK[b] & (cur XOR PREV[b])` (R141). -/
def State.changedBits (s : State) (b : Bank) (cur : Byte) : Byte := s.maskAt b &&& (cur ^^^ s.prevAt b)

/-- `TRIG b`: sample once, record the sample, and dispatch the changed active pins from the least significant bit to
the most significant (R141). -/
def State.trig (b : Bank) (s : State) : State :=
  let cur := s.samplePins b
  (s.setPrev b cur).dispatchBits b cur (s.changedBits b cur) [0, 1, 2, 3, 4, 5, 6, 7]

/-- A request on `VEC[0]` (R141, R250). -/
def execTrig0 (s : State) : Host.Outcome State Fault Refusal := .next (s.admitTrigger 0 (State.trig 0))

/-- A request on `VEC[1]` (R141, R250). -/
def execTrig1 (s : State) : Host.Outcome State Fault Refusal := .next (s.admitTrigger 1 (State.trig 1))

/-- A request on `VEC[2]` (R141, R250). -/
def execTrig2 (s : State) : Host.Outcome State Fault Refusal := .next (s.admitTrigger 2 (State.trig 2))

end Sys2Proof.Machine
end

