-- ==== Sys2Proof/Machine/Registry.lean ====
section
/-! DEFINITION. The Listener Registry's two commands (41_listener_registry.md). -/

namespace Sys2Proof.Machine

/-- The whole of REG.ATTACH, one atomic step (R171). -/
def regAttachBody (h : Handle) (p : Pin) (s : State) : State :=
  if s.attachOk p h then (s.attachBody p h).respond .ok 0 else s.respond .rejected 0

/-- REG.ATTACH: register listener handle h for pin p (R171). -/
def execRegAttach (h : Handle) (p : Pin) (s : State) : Host.Outcome State Fault Refusal :=
  .next (s.onIdle (regAttachBody h p))

/-- The whole of REG.DETACH, one atomic step (R178). -/
def regDetachBody (p : Pin) (s : State) : State := (s.detachBody p).respond .ok 0

/-- REG.DETACH: remove the registration of pin p (R178). -/
def execRegDetach (p : Pin) (s : State) : Host.Outcome State Fault Refusal :=
  .next (s.onIdle (regDetachBody p))

end Sys2Proof.Machine
end

