-- ==== Sys2Proof/Machine/Dispatch.lean ====
section
/-! DEFINITION. exec: the meaning of each operation of the opcode table. -/

namespace Sys2Proof.Machine

/-- One step of the agent that runs the instruction: the command sequencer for the host commands, the trigger engine
for the bank triggers (60_exceptions.md R268). -/
def exec (i : Instr) (s : State) : Host.Outcome State Fault Refusal :=
  match i with
  | .regAttach h pa => Sys2Proof.Machine.execRegAttach h pa s
  | .regDetach pa => Sys2Proof.Machine.execRegDetach pa s
  | .decAttach k pb pa => Sys2Proof.Machine.execDecAttach k pb pa s
  | .decDetach k => Sys2Proof.Machine.execDecDetach k s
  | .decGetid k => Sys2Proof.Machine.execDecGetid k s
  | .trig0 => Sys2Proof.Machine.execTrig0 s
  | .trig1 => Sys2Proof.Machine.execTrig1 s
  | .trig2 => Sys2Proof.Machine.execTrig2 s

end Sys2Proof.Machine
end

