-- ==== Sys2Proof/Machine/Fetch.lean ====
section
/-! DEFINITION. What a step boundary brings (20_memory.md R88 to R93; 60_exceptions.md R250 to R268): an act of the
environment, or a word or vector that the block takes as its next instruction. -/

namespace Sys2Proof.Machine

/-- What the next step boundary brings. -/
inductive Turn where
  /-- No instruction is taken; the state becomes s. -/
  | outside (s : State)
  /-- The word or vector f is taken and runs on the state s. -/
  | fetched (f : Fetched) (s : State)
  deriving DecidableEq, Repr

/-- The sequencer's turn: the pending phase of the command in progress, if there is one (R90). -/
def State.sequencerTurn (s : State) : Turn :=
  match s.seq with
  | .idle => .outside s
  | .busy c => .fetched (.command c.cmd) s

/-- The vector input that is bound to bank b, fixed (R51, R149). -/
def vectorOf (b : Bank) : BitVec 2 := BitVec.ofNat 2 b.val

/-- The first thing of the script that is no command word, and the script without it. -/
def firstOutside : List Input → Option (Input × List Input)
  | [] => none
  | .pins b v :: rest => some (.pins b v, rest)
  | .time t :: rest => some (.time t, rest)
  | .request b stray :: rest => some (.request b stray, rest)
  | .sequencer :: rest => some (.sequencer, rest)
  | .command w :: rest =>
    match firstOutside rest with
    | some (e, others) => some (e, .command w :: others)
    | none => none

/-- What comes next from outside, and the script without it. While the port is busy, the command words that the host
presents are held: they stay in the script, in their order, and everything else goes on past them (R90, R91). -/
def State.nextInput (s : State) : Option (Input × List Input) :=
  match s.seq with
  | .busy _ => firstOutside s.script
  | .idle =>
    match s.script with
    | [] => none
    | e :: rest => some (e, rest)

/-- What an input does: the levels or the time become the environment's, a request or a command word is taken, or the
sequencer moves. -/
def State.take (s : State) (e : Input) : Turn :=
  match e with
  | .pins b v => .outside (s.setPinIn b v)
  | .time t => .outside (s.setTime t)
  | .request b stray => .fetched (.vector (vectorOf b)) (s.redrawStray b stray)
  | .command w => .fetched (.command w) s
  | .sequencer => s.sequencerTurn

/-- The next step boundary. With nothing that can come from outside, the sequencer goes on by itself. -/
def State.turn (s : State) : Turn :=
  match s.nextInput with
  | none => s.sequencerTurn
  | some (e, rest) => (s.setScript rest).take e

/-- The bank whose vector input has the given number; number 3 is no input (R120). -/
def bankOfVector (v : BitVec 2) : Option Bank :=
  if v = 0 then some 0 else if v = 1 then some 1 else if v = 2 then some 2 else none

/-- The state in which the next thing to come from outside is the given word or vector, and the block is free to take
it. A command word is accepted only while SEQ is IDLE (R91), so the sequencer is idle. A request leaves the levels of
the bank as they are; whether it is admitted is TRIG_EN's to say (R250). -/
def State.present (s : State) (f : Fetched) : State :=
  match f with
  | .command w => (s.setScript (.command w :: s.script)).setSeq .idle
  | .vector v =>
    match bankOfVector v with
    | some b => s.setScript (.request b (s.samplePins b) :: s.script)
    | none => s

end Sys2Proof.Machine
end

