-- ==== Sys2Proof/Machine/Step.lean ====
section
/-! DEFINITION. One step of the block and its surroundings (20_memory.md R88, R93). -/

namespace Sys2Proof.Machine

/-- One atomic step. A state with `ASSERT_FAIL = 1` is a fault (R244). Otherwise the next step boundary brings either
an act from outside, or a word or vector that is decoded and run; a word that is no command is answered ILLEGAL
(R115). -/
def step (s : State) : Host.Outcome State Fault Refusal :=
  if s.assertFail then .fault .assertFailed
  else
    match s.turn with
    | .outside t => .next t
    | .fetched f t =>
      match decode f with
      | .ok i => exec i t
      | .error _ => .next (t.rejectFetched f)

/-- The instruction with bits w, of a table row nbits wide, presented to the block as the very next thing to come from
outside: a command word on the command port, or a request on a vector input. -/
def State.withFetchWord (s : State) (nbits w : Nat) : State := s.present (tableFetched nbits w)

end Sys2Proof.Machine
end

