-- ==== Sys2Proof/Safety.lean ====
section
/-! DEFINITION. The invariants the spec gives the block (10_state.md R60), those the model's own layout adds, and what
counts as a safe state (60_exceptions.md R244). -/

namespace Sys2Proof.Machine

/-- INV1 (R37, R60): a pin is registered exactly when its mask bit is set. -/
abbrev MaskMatchesTable (s : State) : Prop :=
  ∀ p : Pin, validPin s.cfg p = true →
    s.lvalidAt p = (s.maskAt (bankOf s.cfg p)).getLsbD (bitOf s.cfg p)

/-- INV2 (R34, R60): a bank's trigger is enabled exactly when its mask is not empty. -/
abbrev EnabledIffActive (s : State) : Prop := ∀ b : Bank, s.trigEnAt b = decide (s.maskAt b ≠ 0)

/-- INV3 (R33, R60): no mask bit is set where the bank has no pin. -/
abbrev NoStrayMaskBit (s : State) : Prop :=
  ∀ b : Bank, ∀ i : Fin 8, bankWidth s.cfg b ≤ i.val → (s.maskAt b).getLsbD i.val = false

/-- INV4 (R38, R60): a registered handle is valid. -/
abbrev HandlesValid (s : State) : Prop :=
  ∀ p : Pin, s.lvalidAt p = true → validHandle s.cfg (s.listenerAt p) = true

/-- INV5 (R42, R60). -/
abbrev CountBelowWidth (s : State) : Prop := ∀ k : DecIdx, (s.decAt k).bitcnt.toNat ≤ 25

/-- INV6 (R43, R60). -/
abbrev AccumulatorFits (s : State) : Prop := ∀ k : DecIdx, (s.decAt k).acc.toNat < 2 ^ (s.decAt k).bitcnt.toNat

/-- INV7 (R45, R60). -/
abbrev CredentialFits (s : State) : Prop := ∀ k : DecIdx, (s.decAt k).cred.toNat < 2 ^ 26

/-- An entry with no registration holds the handle of reset and of REG.DETACH, 0x0 (R59, R178). -/
abbrev EmptyEntryIsZero (s : State) : Prop := ∀ p : Pin, s.lvalidAt p = false → s.listenerAt p = 0

/-- The table entries at or above `N` stand for no pin and stay at their reset value (the model's layout, log entry 4). -/
abbrev NoPinBeyondN (s : State) : Prop :=
  ∀ p : Pin, validPin s.cfg p = false → s.lvalidAt p = false ∧ s.pullupAt p = false

/-- The decoder entries at or above `NUM_DEC` stand for no instance and stay at their reset value (log entry 4). -/
abbrev NoDecoderBeyondNumDec (s : State) : Prop :=
  ∀ k : DecIdx, validDecoder s.cfg k = false → s.decAt k = Decoder.reset

/-- A command can be in progress with this next phase: DEC.ATTACH with one of its phases, or DEC.DETACH with one of its
own (R48, R208, R216), of an existing decoder (R116). -/
def commandInProgress (cfg : Config) (c : Command) : Bool :=
  match decodeCommand c.cmd with
  | .ok (.decAttach k _ _) =>
    validDecoder cfg k && (c.phase != .d1 && c.phase != .d2 && c.phase != .d3)
  | .ok (.decDetach k) => validDecoder cfg k && (c.phase == .d1 || c.phase == .d2 || c.phase == .d3)
  | .ok (.regAttach _ _) => false
  | .ok (.regDetach _) => false
  | .ok (.decGetid _) => false
  | .ok .trig0 => false
  | .ok .trig1 => false
  | .ok .trig2 => false
  | .error _ => false

/-- What SEQ holds is a command in progress (R48, R55). -/
def sequencerLegal (s : State) : Bool :=
  match s.seq with
  | .idle => true
  | .busy c => commandInProgress s.cfg c

/-- A response word as R118 lays it out: STATUS is not `0b11`, and bits 29:26 are 0 (I17). -/
def responseLegal (w : Word) : Bool := w.extractLsb' 30 2 != 3 && w.extractLsb' 26 4 == 0

/-- The invariants INV1 to INV7 of R60, the value of an empty entry, and those of the model's layout: unused entries, the
sequencer, the responses given, and the debug flag. -/
structure Inv (s : State) : Prop where
  mask_matches_table : MaskMatchesTable s
  enabled_iff_active : EnabledIffActive s
  no_stray_mask_bit : NoStrayMaskBit s
  handles_valid : HandlesValid s
  count_below_width : CountBelowWidth s
  accumulator_fits : AccumulatorFits s
  credential_fits : CredentialFits s
  empty_entry_is_zero : EmptyEntryIsZero s
  no_pin_beyond_n : NoPinBeyondN s
  no_decoder_beyond_num_dec : NoDecoderBeyondNumDec s
  sequencer_legal : sequencerLegal s = true
  responses_legal : s.resp.all responseLegal = true
  no_assert_fail : s.assertFail = false

/-! ## Runs that the statements speak of -/

/-- The sequencer runs instruction i for n steps, with nothing from outside in between. -/
def execTimes : Nat → Instr → State → Host.Outcome State Fault Refusal
  | 0, _, s => .next s
  | n + 1, i, s =>
    match exec i s with
    | .next t => execTimes n i t
    | .fault r => .fault r
    | .refused r => .refused r

/-- The instructions of a list run one after the other, each for one step. -/
def execAll : List Instr → State → Host.Outcome State Fault Refusal
  | [], s => .next s
  | i :: rest, s =>
    match exec i s with
    | .next t => execAll rest t
    | .fault r => .fault r
    | .refused r => .refused r

/-- n steps of the block and its surroundings, stopping at the first fault or refusal. -/
def stepTimes : Nat → State → Host.Outcome State Fault Refusal
  | 0, s => .next s
  | n + 1, s =>
    match step s with
    | .next t => stepTimes n t
    | .fault r => .fault r
    | .refused r => .refused r

/-- A decoder's registers after bits that arrive at the given times, in order (R198). -/
def Decoder.feed (tRd tSt : Time) (d : Decoder) : List (Time × Bool) → Decoder
  | [] => d
  | (now, bit) :: rest => Decoder.feed tRd tSt (d.shiftIn tRd tSt now bit) rest

/-- The number that bits form in arrival order, the first the most significant (R82). -/
def bitsValue (bits : List Bool) : Nat := bits.foldl (fun n b => 2 * n + b.toNat) 0

/-- Each bit arrives within `T_RD` of the one before it (R228). -/
def gapsWithin (tRd : Time) : List (Time × Bool) → Bool
  | [] => true
  | [_] => true
  | a :: b :: rest => decide (elapsed b.1 a.1 ≤ tRd) && gapsWithin tRd (b :: rest)

/-- The instruction a request on `VEC[b]` runs, fixed (R149). -/
def triggerOf (b : Bank) : Instr :=
  match b with
  | 0 => .trig0
  | 1 => .trig1
  | 2 => .trig2

/-- Bit i of bank b is dispatched by a trigger: the pin is active and its level differs from the previous sample
(R144). -/
def dispatched (s : State) (b : Bank) (i : Nat) : Bool :=
  s.mask[b].getLsbD i && (s.pinIn[b].getLsbD i != s.prev[b].getLsbD i)

/-- The bit numbers a trigger dispatches, ascending (R92, R141). -/
def dispatchedBits (s : State) (b : Bank) : List Nat := [0, 1, 2, 3, 4, 5, 6, 7].filter (dispatched s b)

/-- The state is no fault: the debug flag is clear (R244). -/
def State.isSafe (s : State) : Bool := !s.assertFail

end Sys2Proof.Machine
end

