-- ==== Sys2Proof/Certificates/Slice0/Obligations.lean ====
section
/-! DEFINITION. The statements about the block, for the provers. `triggerOf b` is trig0, trig1 or trig2. -/

open Sys2Proof Sys2Proof.Machine

/-! ## Encoding -/

/-- 30_encoding.md sections 1, 2, 4 and 6: decoding what the assembler forms of R124 write gives the instruction back,
for every operation of the table and every operand its encoding admits. -/
def Obligations.DecodeOfEncodeIsTheInstruction : Prop :=
  ∀ i : Instr, i.wellFormed = true → decode (encode i) = .ok i

/-- 30_encoding.md sections 2, 4 and 6 (R114: at most one row matches any word; R120: the vector rows; R124: the
forms): a word or vector number that decodes is the one encoding of what it decodes to. -/
def Obligations.EncodeOfDecodeIsTheWord : Prop :=
  ∀ (f : Fetched) (i : Instr), decode f = .ok i → encode i = f ∧ i.wellFormed = true

/-- 30_encoding.md sections 1 and 2: the match and mask table of R114 and the field rules of R113 are the same rule. A
command word decodes exactly when its fields are legal, and what it decodes to has the word's own fields. -/
def Obligations.MaskTableAgreesWithFieldRules : Prop :=
  ∀ w : Word,
    ((∃ i, decode (.command w) = .ok i) ↔ (commandFields w).wellFormed = true) ∧
      (∀ i, decode (.command w) = .ok i → i.fields = some (commandFields w))

/-- 30_encoding.md section 6 (R126), its encoding examples, the vector rows of section 4, and words that are illegal
by section 2. (The names of the rejections are the model's, log entry 11.) -/
def Obligations.ExampleWordsDecode : Prop :=
  decode (.command 0x30000062) = .ok (.decAttach 0 3 2) ∧
  decode (.command 0x3000116A) = .ok (.decAttach 1 11 10) ∧
  decode (.command 0x50000000) = .ok (.decGetid 0) ∧
  decode (.command 0x50001000) = .ok (.decGetid 1) ∧
  decode (.command 0x40000000) = .ok (.decDetach 0) ∧
  decode (.command 0x10008009) = .ok (.regAttach 8 9) ∧
  decode (.command 0x10001004) = .ok (.regAttach 1 4) ∧
  decode (.command 0x20000009) = .ok (.regDetach 9) ∧
  decode (.vector 0b00) = .ok .trig0 ∧
  decode (.vector 0b01) = .ok .trig1 ∧
  decode (.vector 0b10) = .ok .trig2 ∧
  decode (.command 0x00000000) = .error .unassignedOpcode ∧
  decode (.command 0x60000000) = .error .unassignedOpcode ∧
  decode (.command 0x20000029) = .error .reservedFieldSet ∧
  decode (.command 0x40008000) = .error .reservedFieldSet ∧
  decode (.command 0x10010009) = .error .reservedFieldSet

/-- 30_encoding.md section 2 (R115): a word that matches no row of R114 is illegal, which is every word with an
unassigned opcode or with a reserved or unused field set, the word 0 among them; it takes one main-loop step, changes
no state and is answered ILLEGAL. (The word is taken off the script: it has left the port.) (How words come, by the
script, is the model's choice, log entry 3; that the step takes the word off it is deduced, log entry 11.) -/
def Obligations.IllegalWordIsAnsweredIllegal : Prop :=
  (∀ w : Word,
    (w &&& 0xFFFF0FE0 ≠ 0x10000000 ∧ w &&& 0xFFFFFFE0 ≠ 0x20000000 ∧ w &&& 0xFFFF8C00 ≠ 0x30000000 ∧
      w &&& 0xFFFF8FFF ≠ 0x40000000 ∧ w &&& 0xFFFF8FFF ≠ 0x50000000) ↔ (commandFields w).wellFormed = false) ∧
  (commandFields 0).wellFormed = false ∧
  ∀ (w : Word) (s : State) (rest : List Input), (commandFields w).wellFormed = false → s.assertFail = false →
    s.seq = .idle → s.script = .command w :: rest →
    step s = .next { s with script := rest, resp := s.resp ++ [0x80000000] }

/-! ## The step -/

/-- 20_memory.md section 3 and 10_state.md section 5: a command word presented while SEQ is IDLE is accepted, and the
step is exec of the instruction it decodes to, on the state with the word taken off the script. (How words and inputs
come, by the script, is the model's choice, log entry 3.) -/
def Obligations.StepRunsAcceptedCommand : Prop :=
  ∀ (s : State) (w : Word) (i : Instr) (rest : List Input), s.assertFail = false → s.seq = .idle →
    s.script = .command w :: rest → decode (.command w) = .ok i → step s = exec i { s with script := rest }

/-- 20_memory.md section 3: while a command is in progress and nothing else comes from outside, or the sequencer's
turn does, the step is exec of that command, whatever further command words the host presents: they stay presented.
(How words and inputs come, by the script, is the model's choice, log entry 3.) -/
def Obligations.StepRunsCommandInProgress : Prop :=
  ∀ (s : State) (c : Command) (i : Instr), s.assertFail = false → s.seq = .busy c → decode (.command c.cmd) = .ok i →
    (∀ ws : List Word, s.script = ws.map Input.command → step s = exec i s) ∧
    (∀ rest, s.script = .sequencer :: rest → step s = exec i { s with script := rest })

/-- 20_memory.md section 3 (R90, R91): a command word presented while another command is in progress is held and not
lost. What else comes from outside goes on as without it, and the word is still the next one presented. (The script is
the model's choice, log entries 3 and 9.) -/
def Obligations.HeldCommandIsNotLost : Prop :=
  ∀ (s : State) (c : Command) (w : Word) (e : Input) (rest : List Input), s.assertFail = false → s.seq = .busy c →
    s.script = .command w :: e :: rest → (∀ v, e ≠ .command v) →
    ∃ t, step { s with script := e :: rest } = .next t ∧ t.script = rest ∧
      step s = .next { t with script := .command w :: rest }

/-- 10_state.md section 5 and 60_exceptions.md section 3: a request on `VEC[b]` runs TRIG b and nothing else, at any
step boundary, whatever the sequencer does. The bits of `PIN_IN[b]` with no pin behind them are drawn afresh; the
others keep their level. (The script and the fresh bits are the model's choice, log entries 3 and 5.) -/
def Obligations.StepRunsBankTrigger : Prop :=
  ∀ (s : State) (b : Bank) (stray : Byte) (rest : List Input), s.assertFail = false →
    s.script = .request b stray :: rest →
    ∃ v : Byte,
      (∀ i, i < 8 → v.getLsbD i = if i < bankWidth s.cfg b then s.pinIn[b].getLsbD i else stray.getLsbD i) ∧
      step s = exec (triggerOf b) { s with script := rest, pinIn := s.pinIn.set b v }

/-- 10_state.md section 5 and 60_exceptions.md section 5: the environment sets the levels of a bank or the time, and
the block does nothing of its own then; with SEQ IDLE and nothing presented, nothing changes. (How words and inputs
come, by the script, is the model's choice, log entry 3.) -/
def Obligations.EnvironmentMovesInputsOnly : Prop :=
  ∀ (s : State) (rest : List Input), s.assertFail = false →
    (∀ b v, s.script = .pins b v :: rest → step s = .next { s with script := rest, pinIn := s.pinIn.set b v }) ∧
    (∀ t, s.script = .time t :: rest → step s = .next { s with script := rest, time := t }) ∧
    (s.seq = .idle → s.script = .sequencer :: rest → step s = .next { s with script := rest }) ∧
    (s.seq = .idle → s.script = [] → step s = .next s)

/-- 60_exceptions.md section 1 (R244): a state with `ASSERT_FAIL = 1` is a fault, and no other state is. (That the
step after it is the fault is deduced, log entry 8.) -/
def Obligations.FaultExactlyWhenAssertFailed : Prop :=
  ∀ s : State, step s = .fault .assertFailed ↔ s.assertFail = true

/-- How a word comes to run (the model's choice, log entry 3): presented next to an idle block, the very next step runs
the instruction the decoder reads from it, on the state as it was. -/
def Obligations.PresentedWordRunsNext : Prop :=
  ∀ (s : State) (nbits w : Nat) (i : Instr), s.assertFail = false → s.seq = .idle →
    decodeTableWord nbits w = some i → step (s.withFetchWord nbits w) = exec i s

/-! ## Reset and the invariants -/

/-- R59: after power-on reset every state element has the value of its table, in every configuration and whatever the
live levels and the time are. (The spec marks every row but that of PREV as its own choice, D24.) -/
def Obligations.PowerOnValues : Prop :=
  ∀ (cfg : Config) (pins : Vector Byte 3) (now : Time),
    let s := State.powerOn cfg pins now
    (∀ b, s.prevAt b = s.samplePins b) ∧ (∀ b, s.maskAt b = 0x00) ∧ (∀ b, s.trigEnAt b = false) ∧
    (∀ p, s.lvalidAt p = false) ∧ (∀ p, s.listenerAt p = 0x0) ∧ (∀ p, s.pullupAt p = false) ∧
    (∀ k, (s.decAt k).attached = false ∧ (s.decAt k).p0 = 0 ∧ (s.decAt k).p1 = 0 ∧ (s.decAt k).bitcnt = 0 ∧
      (s.decAt k).acc = 0 ∧ (s.decAt k).tlast = 0 ∧ (s.decAt k).cred = 0 ∧ (s.decAt k).tcred = 0) ∧
    s.seq = .idle ∧ s.evt = [] ∧ s.assertFail = false

/-- 10_state.md section 6 (R60): the invariants hold at reset; with them those of the model's layout (log entry 4). -/
def Obligations.InvariantsHoldAtReset : Prop :=
  (∀ (cfg : Config) (pins : Vector Byte 3) (now : Time), Inv (State.powerOn cfg pins now)) ∧ Inv State.reset

/-- 10_state.md section 6 (R60): every step keeps the invariants, INV1 to INV7 and those of the model's layout. -/
def Obligations.EveryStepKeepsInvariants : Prop :=
  ∀ s t : State, Inv s → step s = .next t → Inv t

/-- 60_exceptions.md section 1 (R240, R243): no condition stops the block. From a state with the invariants a step answers
a next state. -/
def Obligations.NothingStopsTheBlock : Prop :=
  ∀ s : State, Inv s → ∃ t, step s = .next t

/-! ## The Listener Registry -/

/-- 41_listener_registry.md section 1 (R171, and R172, which the spec derives from it): the net effect of a successful
REG.ATTACH, with its frame: every other element is unchanged, but for the response OK. The premise on `TRIG_EN` is
INV2 for the pin's bank. -/
def Obligations.RegAttachNetEffect : Prop :=
  ∀ (s : State) (h : Handle) (p : Pin), s.seq = .idle → validPin s.cfg p = true → validHandle s.cfg h = true →
    s.trigEnAt (bankOf s.cfg p) = decide (s.maskAt (bankOf s.cfg p) ≠ 0) →
    exec (.regAttach h p) s = .next
      { s with
        listener := s.listener.set p.toNat h
        lvalid := s.lvalid.set p.toNat true
        mask := s.mask.set (bankOf s.cfg p) (s.maskAt (bankOf s.cfg p) ||| 1#8 <<< bitOf s.cfg p)
        trigEn := s.trigEn.set (bankOf s.cfg p) true
        resp := s.resp ++ [0x00000000] }

/-- 41_listener_registry.md section 1 (R171, R173): an index at or above N, or a handle naming a decoder at or above
NUM_DEC, is answered FALSE, and nothing else changes. -/
def Obligations.RegAttachRejectsBadOperands : Prop :=
  ∀ (s : State) (h : Handle) (p : Pin), s.seq = .idle →
    (pinCount s.cfg ≤ p.toNat ∨ (h.getLsbD 3 = false ∧ s.cfg.numDec ≤ (h.extractLsb' 0 3).toNat)) →
    exec (.regAttach h p) s = .next { s with resp := s.resp ++ [0x40000000] }

/-- R178: REG.DETACH, its encoding, operand, effect and frame. (That an invalid pin is answered OK is the spec's
decision D28.) -/
def Obligations.RegDetachRemovesRegistration : Prop :=
  (∀ w : Word, w &&& 0xFFFFFFE0 = 0x20000000 → decode (.command w) = .ok (.regDetach (w.extractLsb' 0 5))) ∧
  ∀ (s : State) (p : Pin), s.seq = .idle →
    (pinCount s.cfg ≤ p.toNat → exec (.regDetach p) s = .next { s with resp := s.resp ++ [0x00000000] }) ∧
    (p.toNat < pinCount s.cfg →
      exec (.regDetach p) s = .next
        { s with
          lvalid := s.lvalid.set p.toNat false
          listener := s.listener.set p.toNat 0x0
          mask := s.mask.set (bankOf s.cfg p) (s.maskAt (bankOf s.cfg p) &&& ~~~(1#8 <<< bitOf s.cfg p))
          trigEn := s.trigEn.set (bankOf s.cfg p)
            (if s.maskAt (bankOf s.cfg p) &&& ~~~(1#8 <<< bitOf s.cfg p) = 0x00 then false
              else s.trigEnAt (bankOf s.cfg p))
          resp := s.resp ++ [0x00000000] })

/-- R177: REG.DETACH is a safe no-op on a pin that has no registration and on an index that is not valid: in a state
with the invariants nothing changes but the response. -/
def Obligations.RegDetachOfUnregisteredPinIsNoOp : Prop :=
  ∀ (s : State) (p : Pin), Inv s → s.seq = .idle → s.lvalidAt p = false →
    exec (.regDetach p) s = .next { s with resp := s.resp ++ [0x00000000] }

/-- 41_listener_registry.md section 1 (R176, for the registry's own commands): after any sequence of REG.ATTACH with a
valid pin and handle (`some h`) and REG.DETACH (`none`) on one pin, its mask bit is 1 exactly when the last of them was
a REG.ATTACH, and as before after none. -/
def Obligations.MaskBitFollowsLastCommand : Prop :=
  ∀ (s : State) (p : Pin) (l : List (Option Handle)), s.seq = .idle → validPin s.cfg p = true →
    (∀ h, some h ∈ l → validHandle s.cfg h = true) →
    ∃ t, execAll (l.map fun o => match o with | some h => Instr.regAttach h p | none => Instr.regDetach p) s = .next t ∧
      (t.maskAt (bankOf s.cfg p)).getLsbD (bitOf s.cfg p) =
        match l.getLast? with
        | some o => o.isSome
        | none => (s.maskAt (bankOf s.cfg p)).getLsbD (bitOf s.cfg p)

/-! ## The Edge Multiplexer -/

/-- 60_exceptions.md section 2 (R250, R251): a request on `VEC[b]` while `TRIG_EN[b] = 0` has no effect. -/
def Obligations.RequestWithTriggerDisabledHasNoEffect : Prop :=
  ∀ (b : Bank) (s : State), s.trigEnAt b = false → exec (triggerOf b) s = .next s

/-- 40_edge_multiplexer.md section 1 (R141, R142): an admitted TRIG b (trig0, trig1, trig2) completes; it stores the whole
sampled byte into `PREV[b]`, and leaves every other element unchanged but for the decoders' in-progress and completed
registers, `EVT` and the debug flag. -/
def Obligations.TrigStoresSampleAndFrame : Prop :=
  ∀ (b : Bank) (s : State), s.trigEnAt b = true →
    ∃ t, exec (triggerOf b) s = .next t ∧
      t.prev = s.prev.set b s.pinIn[b] ∧
      t.cfg = s.cfg ∧ t.pinIn = s.pinIn ∧ t.time = s.time ∧ t.script = s.script ∧ t.mask = s.mask ∧
      t.trigEn = s.trigEn ∧ t.lvalid = s.lvalid ∧ t.listener = s.listener ∧ t.pullup = s.pullup ∧ t.seq = s.seq ∧
      t.resp = s.resp ∧
      ∀ k, (t.decAt k).attached = (s.decAt k).attached ∧ (t.decAt k).p0 = (s.decAt k).p0 ∧
        (t.decAt k).p1 = (s.decAt k).p1

/-- 40_edge_multiplexer.md sections 1 and 2 (R141, R144, R150, R152): an admitted trigger appends to `EVT` one EXT event
for each changed active pin of the bank that an external listener holds, with the sampled level, in ascending index
order, and nothing for any other pin. -/
def Obligations.TrigEmitsChangedExternalPinsInOrder : Prop :=
  ∀ (b : Bank) (s : State), s.trigEnAt b = true →
    ∃ t, exec (triggerOf b) s = .next t ∧
      (dispatchedBits s b).Pairwise (· < ·) ∧
      t.evt = s.evt ++ (dispatchedBits s b).filterMap fun i =>
        let p := pinAt s.cfg b i
        if s.lvalidAt p && (s.listenerAt p).getLsbD 3 then
          some (.ext ((s.listenerAt p).extractLsb' 0 3) p (s.pinIn[b].getLsbD i))
        else none

/-- 40_edge_multiplexer.md section 2 (R151) and 42_wiegand_decoder.md section 1: an admitted trigger performs HANDLE on
decoder k for each changed active pin of the bank whose registered handle is decoder k's, in ascending index order,
and nothing else on it. -/
def Obligations.TrigHandlesDecoderPinsInOrder : Prop :=
  ∀ (b : Bank) (s : State) (k : DecIdx), s.trigEnAt b = true →
    ∃ t, exec (triggerOf b) s = .next t ∧
      t.decAt k = (dispatchedBits s b).foldl (fun d i =>
        let p := pinAt s.cfg b i
        if s.lvalidAt p && s.listenerAt p == decoderHandle k then
          d.handle s.cfg.tRd s.cfg.tSt s.time p (s.pinIn[b].getLsbD i)
        else d) (s.decAt k)

/-- 40_edge_multiplexer.md section 1 (R147 (a), (f)): a trigger with no changed active pin writes `PREV[b]` alone. -/
def Obligations.SpuriousTriggerOnlyStoresSample : Prop :=
  ∀ (b : Bank) (s : State), s.trigEnAt b = true → s.maskAt b &&& (s.pinIn[b] ^^^ s.prevAt b) = 0 →
    exec (triggerOf b) s = .next { s with prev := s.prev.set b s.pinIn[b] }

/-- 40_edge_multiplexer.md section 1 (R144, the masking invariant): what the inactive bits of a bank read now, and what
they read before, makes no difference to any decoder, to `EVT` or to the debug flag. -/
def Obligations.InactivePinsHaveNoInfluence : Prop :=
  ∀ (b : Bank) (s : State) (cur old : Byte), s.trigEnAt b = true →
    (∀ i, (s.maskAt b).getLsbD i = true →
      cur.getLsbD i = s.pinIn[b].getLsbD i ∧ old.getLsbD i = (s.prevAt b).getLsbD i) →
    ∃ t u, exec (triggerOf b) s = .next t ∧
      exec (triggerOf b) { s with pinIn := s.pinIn.set b cur, prev := s.prev.set b old } = .next u ∧
      u.dec = t.dec ∧ u.evt = t.evt ∧ u.assertFail = t.assertFail

/-- 40_edge_multiplexer.md section 2 (R150, R153): after an admitted trigger the debug flag is set exactly when it was
set before, or a changed active pin of the bank has no listener. -/
def Obligations.UnboundActivePinSetsAssertFail : Prop :=
  ∀ (b : Bank) (s : State), s.trigEnAt b = true →
    ∃ t, exec (triggerOf b) s = .next t ∧
      t.assertFail = (s.assertFail || (dispatchedBits s b).any fun i => !s.lvalidAt (pinAt s.cfg b i))

/-- 40_edge_multiplexer.md section 2 (R150, R153): where active pins of the bank have changed and none of them has a
listener, all are skipped: an admitted trigger stores the sample and sets the debug flag, and does nothing else. -/
def Obligations.UnboundPinsAreSkipped : Prop :=
  ∀ (b : Bank) (s : State), s.trigEnAt b = true → dispatchedBits s b ≠ [] →
    (∀ i, dispatched s b i = true → s.lvalidAt (pinAt s.cfg b i) = false) →
    exec (triggerOf b) s = .next { s with prev := s.prev.set b s.pinIn[b], assertFail := true }

/-- 60_exceptions.md section 1 (R244) and 40_edge_multiplexer.md section 2 (R150): nothing clears the debug flag, and
nothing but an admitted trigger that reaches a changed active pin with no listener sets it. Said of every instruction,
and of every step: the step that sets it takes a request from outside, and the pin is judged by the sample of that
request. (The request's script and fresh bits are the model's choice, log entries 3 and 5; that a step from a state
with the flag is a fault, log entry 8.) -/
def Obligations.AssertFailHasNoOtherSource : Prop :=
  (∀ (i : Instr) (s : State),
    ∃ t, exec i s = .next t ∧ (s.assertFail = true → t.assertFail = true) ∧
      (t.assertFail = true → s.assertFail = false →
        ∃ b j, i = triggerOf b ∧ s.trigEnAt b = true ∧ dispatched s b j = true ∧
          s.lvalidAt (pinAt s.cfg b j) = false)) ∧
  ∀ s t : State, step s = .next t → t.assertFail = true →
    ∃ b stray rest j, s.nextInput = some (.request b stray, rest) ∧ s.trigEnAt b = true ∧
      dispatched (s.redrawStray b stray) b j = true ∧ s.lvalidAt (pinAt s.cfg b j) = false

/-! ## The Wiegand Decoder in interrupt context -/

/-- 42_wiegand_decoder.md section 1 (R191, R194): a decoder that is not attached, or that no registered pin names, is not
changed by any trigger. -/
def Obligations.DetachedOrUnnamedDecoderIsDeaf : Prop :=
  ∀ (b : Bank) (s : State) (k : DecIdx), s.trigEnAt b = true →
    ((s.decAt k).attached = false ∨ ∀ p, s.lvalidAt p = true → s.listenerAt p ≠ decoderHandle k) →
    ∃ t, exec (triggerOf b) s = .next t ∧ t.decAt k = s.decAt k

/-- 42_wiegand_decoder.md section 1 (R191, last branch, and R194 (c)): a changed pin that is registered to decoder k
but is neither its zero-pin nor its one-pin gives no bit, whichever way its level went. Where every changed active pin
of the bank that names decoder k is such a pin, an admitted trigger leaves decoder k as it is. -/
def Obligations.EdgeOnUnassignedPinIsNoBit : Prop :=
  ∀ (b : Bank) (s : State) (k : DecIdx), s.trigEnAt b = true →
    (∀ i, dispatched s b i = true → s.lvalidAt (pinAt s.cfg b i) = true →
      s.listenerAt (pinAt s.cfg b i) = decoderHandle k →
      pinAt s.cfg b i ≠ (s.decAt k).p0 ∧ pinAt s.cfg b i ≠ (s.decAt k).p1) →
    ∃ t, exec (triggerOf b) s = .next t ∧ t.decAt k = s.decAt k

/-- 42_wiegand_decoder.md section 1 (R191, R193): rising edges change no decoder. -/
def Obligations.RisingEdgesChangeNoDecoder : Prop :=
  ∀ (b : Bank) (s : State), s.trigEnAt b = true →
    (∀ i, dispatched s b i = true → s.pinIn[b].getLsbD i = true) →
    ∃ t, exec (triggerOf b) s = .next t ∧ t.dec = s.dec

/-- 42_wiegand_decoder.md sections 1 and 2 (R191, R198): a trigger whose one changed active pin falls, and is the zero-pin
or the one-pin of the attached decoder k that its handle names, does SHIFT_IN of that bit on decoder k: the timeout
discard, the shift, and at the 26th bit the promotion or the drop; no other decoder changes and no event is emitted. -/
def Obligations.OneFallingEdgeShiftsOneBit : Prop :=
  ∀ (b : Bank) (s : State) (i : Nat) (k : DecIdx) (bit : Bool), s.trigEnAt b = true → dispatchedBits s b = [i] →
    s.pinIn[b].getLsbD i = false → s.lvalidAt (pinAt s.cfg b i) = true →
    s.listenerAt (pinAt s.cfg b i) = decoderHandle k → (s.decAt k).attached = true →
    (bit = false ∧ pinAt s.cfg b i = (s.decAt k).p0 ∨
      bit = true ∧ pinAt s.cfg b i ≠ (s.decAt k).p0 ∧ pinAt s.cfg b i = (s.decAt k).p1) →
    let d := s.decAt k
    let stalled := s.cfg.tRd < s.time - d.tlast
    let count : BitVec 5 := (if stalled then (0 : BitVec 5) else d.bitcnt) + 1
    let value : Word := (if stalled then (0 : Word) else d.acc) <<< 1 ||| (if bit then (1 : Word) else 0)
    ∃ t, exec (triggerOf b) s = .next t ∧ (∀ j, j ≠ k → t.decAt j = s.decAt j) ∧ t.evt = s.evt ∧
      t.decAt k =
        if count = 26 then
          if s.cfg.tSt < s.time - d.tcred then
            { d with bitcnt := 0, acc := 0, tlast := s.time, cred := value, tcred := s.time }
          else { d with bitcnt := 0, acc := 0, tlast := s.time }
        else { d with bitcnt := count, acc := value, tlast := s.time }

/-- 42_wiegand_decoder.md section 7 (R228 (a)) and 20_memory.md section 1 (R82): 26 bits into an Idle decoder, each within
`T_RD` of the one before, the 26th when the last credential is older than `T_ST`, leave in CRED the 26 bits in arrival
order, the first the most significant, and the decoder Idle. -/
def Obligations.CompleteReadYieldsBitsInArrivalOrder : Prop :=
  ∀ (tRd tSt : Time) (d : Decoder) (bits : List (Time × Bool)) (last : Time × Bool), d.bitcnt = 0 → d.acc = 0 →
    (bits ++ [last]).length = 26 → gapsWithin tRd (bits ++ [last]) = true → tSt < last.1 - d.tcred →
    (d.feed tRd tSt (bits ++ [last])).cred.toNat = bitsValue ((bits ++ [last]).map Prod.snd) ∧
      (d.feed tRd tSt (bits ++ [last])).tcred = last.1 ∧ (d.feed tRd tSt (bits ++ [last])).bitcnt = 0 ∧
      (d.feed tRd tSt (bits ++ [last])).acc = 0

/-- 42_wiegand_decoder.md section 7 (R228 (b)): bits on both sides of a gap above `T_RD` never form a credential. Up to 25
bits after the gap complete nothing, whatever came before it; and if they are not themselves interrupted, the
in-progress read holds exactly them. -/
def Obligations.BitsAcrossTimeoutNeverJoin : Prop :=
  ∀ (tRd tSt : Time) (d : Decoder) (before after : List (Time × Bool)) (first : Time × Bool),
    tRd < first.1 - (d.feed tRd tSt before).tlast → (first :: after).length ≤ 25 →
    (d.feed tRd tSt (before ++ first :: after)).cred = (d.feed tRd tSt before).cred ∧
      (d.feed tRd tSt (before ++ first :: after)).tcred = (d.feed tRd tSt before).tcred ∧
      (gapsWithin tRd (first :: after) = true →
        (d.feed tRd tSt (before ++ first :: after)).bitcnt.toNat = (first :: after).length ∧
          (d.feed tRd tSt (before ++ first :: after)).acc.toNat = bitsValue ((first :: after).map Prod.snd))

/-- 42_wiegand_decoder.md sections 2 and 7 (R201, R228 (c)): however many bits arrive, none of them later than `T_ST` after
the last promotion, the completed credential and its time stay as they are. -/
def Obligations.RecentReadsAreDropped : Prop :=
  ∀ (tRd tSt : Time) (d : Decoder) (bits : List (Time × Bool)), (∀ e ∈ bits, ¬tSt < e.1 - d.tcred) →
    (d.feed tRd tSt bits).cred = d.cred ∧ (d.feed tRd tSt bits).tcred = d.tcred

/-! ## The decoder commands -/

/-- R116: DEC.ATTACH, DEC.DETACH and DEC.GETID with `K >= NUM_DEC` take one step, change no state and respond FALSE. (The
spec's decision D27.) -/
def Obligations.MissingDecoderIsAnsweredFalse : Prop :=
  ∀ (s : State) (k : DecIdx) (pa pb : Pin), s.seq = .idle → s.cfg.numDec ≤ k.toNat →
    exec (.decAttach k pb pa) s = .next { s with resp := s.resp ++ [0x40000000] } ∧
    exec (.decDetach k) s = .next { s with resp := s.resp ++ [0x40000000] } ∧
    exec (.decGetid k) s = .next { s with resp := s.resp ++ [0x40000000] }

/-- R222: DEC.GETID, its encoding, operand, effect and frame. -/
def Obligations.GetidReturnsAndConsumes : Prop :=
  (∀ w : Word, w &&& 0xFFFF8FFF = 0x50000000 → decode (.command w) = .ok (.decGetid (w.extractLsb' 12 3))) ∧
  ∀ (s : State) (k : DecIdx), s.seq = .idle →
    (s.cfg.numDec ≤ k.toNat → exec (.decGetid k) s = .next { s with resp := s.resp ++ [0x40000000] }) ∧
    (k.toNat < s.cfg.numDec →
      exec (.decGetid k) s = .next
        { s with
          dec := s.dec.set k.toNat { s.decAt k with cred := 0 }
          resp := s.resp ++
            [0#6 ++ (if s.cfg.tSt < s.time - (s.decAt k).tcred then 0#26 else (s.decAt k).cred.extractLsb' 0 26)] })

/-- 42_wiegand_decoder.md section 6 (R225 (b)): of two DEC.GETID with nothing but `TIME` moving between them, the
second responds 0, whatever the time is then. (GetidAfterNoPromotionReturnsZero lets anything but a promotion come
between.) -/
def Obligations.SecondGetidReturnsZero : Prop :=
  ∀ (s : State) (k : DecIdx) (later : Time), s.seq = .idle → k.toNat < s.cfg.numDec →
    ∃ t u, exec (.decGetid k) s = .next t ∧ exec (.decGetid k) { t with time := later } = .next u ∧
      u.resp = t.resp ++ [0x00000000]

/-- 42_wiegand_decoder.md section 6 (R222, R225 (c), (e)): where decoder k has no credential (CRED is 0), DEC.GETID
responds 0 and nothing else changes, whatever TCRED and the time are. -/
def Obligations.EmptyCredentialReadsZero : Prop :=
  ∀ (s : State) (k : DecIdx), s.seq = .idle → k.toNat < s.cfg.numDec → (s.decAt k).cred = 0 →
    exec (.decGetid k) s = .next { s with resp := s.resp ++ [0x00000000] }

/-- 42_wiegand_decoder.md section 6 (R225 (b)): after a DEC.GETID, any number of steps may follow, with triggers,
levels, time and other commands among them; as long as none of them promotes a credential of decoder k, which is what
writes its TCRED (10_state.md section 4), the next DEC.GETID of it responds 0 and changes nothing else. -/
def Obligations.GetidAfterNoPromotionReturnsZero : Prop :=
  ∀ (s : State) (k : DecIdx), s.seq = .idle → k.toNat < s.cfg.numDec →
    ∃ t, exec (.decGetid k) s = .next t ∧
      ∀ (l : List Input) (n : Nat) (u : State), stepTimes n { t with script := l } = .next u →
        (∀ m v, m ≤ n → stepTimes m { t with script := l } = .next v → (v.decAt k).tcred = (t.decAt k).tcred) →
        u.seq = .idle → exec (.decGetid k) u = .next { u with resp := u.resp ++ [0x00000000] }

/-- 42_wiegand_decoder.md section 4 (phase A0) and 10_state.md section 5: an accepted DEC.ATTACH leaves SEQ busy with its
own word, at phase DD1 when the decoder is attached and at A1 otherwise, and changes nothing else. (The values of t0,
ok0 and ok1 until their phases write them are the model's, log entry 6.) -/
def Obligations.DecAttachBegins : Prop :=
  ∀ (s : State) (k : DecIdx) (pa pb : Pin) (w : Word), s.seq = .idle → k.toNat < s.cfg.numDec →
    encode (.decAttach k pb pa) = .command w →
    exec (.decAttach k pb pa) s = .next
      { s with seq := .busy { cmd := w, phase := if (s.decAt k).attached then .dd1 else .a1, t0 := 0, ok0 := false,
                              ok1 := false } }

/-- 42_wiegand_decoder.md section 4 (phases DD1 to DD3): DEC.ATTACH of an attached decoder, with nothing else between
its steps, first removes whatever is registered on its two old pins, and leaves the decoder Idle, unbound and without
a credential; TLAST and TCRED, the pull-ups, PREV and the other decoders are kept. -/
def Obligations.ReattachDetachesFirst : Prop :=
  ∀ (s : State) (k : DecIdx) (pa pb : Pin), s.seq = .idle → k.toNat < s.cfg.numDec → (s.decAt k).attached = true →
    let old := fun q : Pin => validPin s.cfg q && (q == (s.decAt k).p0 || q == (s.decAt k).p1)
    ∃ t, execTimes 4 (.decAttach k pb pa) s = .next t ∧
      (∃ c, t.seq = .busy c ∧ c.phase = .a1 ∧ encode (.decAttach k pb pa) = .command c.cmd) ∧
      t.dec = s.dec.set k.toNat
        { s.decAt k with attached := false, p0 := 0, p1 := 0, bitcnt := 0, acc := 0, cred := 0 } ∧
      (∀ q, t.lvalidAt q = (s.lvalidAt q && !old q)) ∧
      (∀ q, t.listenerAt q = if old q then 0 else s.listenerAt q) ∧
      (∀ b i, (t.maskAt b).getLsbD i =
        ((s.maskAt b).getLsbD i && !(decide (i < bankWidth s.cfg b) && old (pinAt s.cfg b i)))) ∧
      (EnabledIffActive s → EnabledIffActive t) ∧
      t.cfg = s.cfg ∧ t.pinIn = s.pinIn ∧ t.time = s.time ∧ t.script = s.script ∧ t.prev = s.prev ∧
      t.pullup = s.pullup ∧ t.resp = s.resp ∧ t.evt = s.evt ∧ t.assertFail = s.assertFail

/-- 42_wiegand_decoder.md section 4 (phases A1 to A6): with nothing else between its steps, from phase A1, four steps
of DEC.ATTACH and, once `SETTLE_MS` has passed, two more complete it. The decoder is bound to pa and pb, Idle and
without a credential; each valid one of the two pins is registered to it, active and pulled up, whoever held it
before; a pin that is not valid is stored and nothing else; the response is OK with the two registration results;
TLAST, TCRED, PREV and the other decoders are kept. -/
def Obligations.DecAttachCompletes : Prop :=
  ∀ (s : State) (k : DecIdx) (pa pb : Pin) (c : Command), s.seq = .busy c → c.phase = .a1 →
    encode (.decAttach k pb pa) = .command c.cmd → k.toNat < s.cfg.numDec →
    let own := fun q : Pin => validPin s.cfg q && (q == pa || q == pb)
    ∃ t, execTimes 4 (.decAttach k pb pa) s = .next t ∧
      ∀ now : Time, s.cfg.settleMs ≤ now - s.time →
        ∃ u, execTimes 2 (.decAttach k pb pa) { t with time := now } = .next u ∧
          u.seq = .idle ∧
          u.resp = s.resp ++
            [0#30 ++ BitVec.ofBool (validPin s.cfg pb) ++ BitVec.ofBool (validPin s.cfg pa)] ∧
          u.dec = s.dec.set k.toNat
            { s.decAt k with attached := true, p0 := pa, p1 := pb, bitcnt := 0, acc := 0, cred := 0 } ∧
          (∀ q, u.lvalidAt q = (s.lvalidAt q || own q)) ∧
          (∀ q, u.listenerAt q = if own q then decoderHandle k else s.listenerAt q) ∧
          (∀ q, u.pullupAt q = (s.pullupAt q || own q)) ∧
          (∀ b i, (u.maskAt b).getLsbD i =
            ((s.maskAt b).getLsbD i || (decide (i < bankWidth s.cfg b) && own (pinAt s.cfg b i)))) ∧
          (EnabledIffActive s → EnabledIffActive u) ∧
          u.cfg = s.cfg ∧ u.pinIn = s.pinIn ∧ u.time = now ∧ u.script = s.script ∧ u.prev = s.prev ∧
          u.evt = s.evt ∧ u.assertFail = s.assertFail

/-- 42_wiegand_decoder.md section 4 (R212): phase A5 of DEC.ATTACH goes on to A6 at the first step at which `SETTLE_MS` has
passed since t0, and until then changes nothing. -/
def Obligations.SettlePauseWaitsForTime : Prop :=
  ∀ (s : State) (k : DecIdx) (pa pb : Pin) (c : Command), s.seq = .busy c → c.phase = .a5 →
    encode (.decAttach k pb pa) = .command c.cmd →
    exec (.decAttach k pb pa) s =
      if s.cfg.settleMs ≤ s.time - c.t0 then .next { s with seq := .busy { c with phase := .a6 } } else .next s

/-- 42_wiegand_decoder.md section 4 (phase A6 of R208, R211): from every state in which phase A6 is next, whatever
triggers did before it, DEC.ATTACH completes: what the decoder has in progress and its credential are erased, and the
response is OK with the two registration results. TLAST and TCRED are kept, and nothing else changes. -/
def Obligations.AttachLastPhaseResets : Prop :=
  ∀ (s : State) (k : DecIdx) (pa pb : Pin) (c : Command), s.seq = .busy c → c.phase = .a6 →
    encode (.decAttach k pb pa) = .command c.cmd →
    exec (.decAttach k pb pa) s = .next
      { s with
        dec := s.dec.set k.toNat { s.decAt k with bitcnt := 0, acc := 0, cred := 0 }
        seq := .idle
        resp := s.resp ++ [0#30 ++ BitVec.ofBool c.ok1 ++ BitVec.ofBool c.ok0] }

/-- 42_wiegand_decoder.md section 4 (phase DD3 of R208): from every state in which phase DD3 is next, whatever
triggers did before it, the implicit detach of DEC.ATTACH erases what the decoder has in progress and its credential,
and unbinds it. TLAST and TCRED are kept, and nothing else changes but the phase. -/
def Obligations.ImplicitDetachLastPhaseResets : Prop :=
  ∀ (s : State) (k : DecIdx) (pa pb : Pin) (c : Command), s.seq = .busy c → c.phase = .dd3 →
    encode (.decAttach k pb pa) = .command c.cmd →
    exec (.decAttach k pb pa) s = .next
      { s with
        dec := s.dec.set k.toNat
          { s.decAt k with attached := false, p0 := 0, p1 := 0, bitcnt := 0, acc := 0, cred := 0 }
        seq := .busy { c with phase := .a1 } }

/-- 42_wiegand_decoder.md section 5 (R216, R218, R219): DEC.DETACH of an attached decoder with nothing else between
its steps, completes in four steps, removes whatever is registered on its two pins, leaves the decoder unbound, Idle
and without a credential, and responds OK; TLAST, TCRED, the pull-ups, PREV and the other decoders are kept. -/
def Obligations.DecDetachCompletes : Prop :=
  ∀ (s : State) (k : DecIdx), s.seq = .idle → k.toNat < s.cfg.numDec → (s.decAt k).attached = true →
    let old := fun q : Pin => validPin s.cfg q && (q == (s.decAt k).p0 || q == (s.decAt k).p1)
    (∃ r, exec (.decDetach k) s = .next r ∧ r = { s with seq := r.seq }) ∧
    ∃ t, execTimes 4 (.decDetach k) s = .next t ∧
      t.seq = .idle ∧ t.resp = s.resp ++ [0x00000000] ∧
      t.dec = s.dec.set k.toNat
        { s.decAt k with attached := false, p0 := 0, p1 := 0, bitcnt := 0, acc := 0, cred := 0 } ∧
      (∀ q, t.lvalidAt q = (s.lvalidAt q && !old q)) ∧
      (∀ q, t.listenerAt q = if old q then 0 else s.listenerAt q) ∧
      (∀ b i, (t.maskAt b).getLsbD i =
        ((s.maskAt b).getLsbD i && !(decide (i < bankWidth s.cfg b) && old (pinAt s.cfg b i)))) ∧
      (EnabledIffActive s → EnabledIffActive t) ∧
      t.cfg = s.cfg ∧ t.pinIn = s.pinIn ∧ t.time = s.time ∧ t.script = s.script ∧ t.prev = s.prev ∧
      t.pullup = s.pullup ∧ t.evt = s.evt ∧ t.assertFail = s.assertFail

/-- 42_wiegand_decoder.md section 5 (R219 (a)): DEC.DETACH of a decoder that is not attached completes in two steps,
unregisters no pin (pin 0 neither), and clears what is left in CRED. -/
def Obligations.DetachOfUnattachedDecoderTouchesNoPin : Prop :=
  ∀ (s : State) (k : DecIdx), s.seq = .idle → k.toNat < s.cfg.numDec → (s.decAt k).attached = false →
    execTimes 2 (.decDetach k) s = .next
      { s with
        dec := s.dec.set k.toNat
          { s.decAt k with attached := false, p0 := 0, p1 := 0, bitcnt := 0, acc := 0, cred := 0 }
        resp := s.resp ++ [0x00000000] }

/-- 42_wiegand_decoder.md section 5 (phase D3 of R216, R218, R219 (b)): from every state in which phase D3 is next,
whatever triggers did before it, DEC.DETACH completes: what the decoder has in progress and its credential are erased,
it is unbound, and the response is OK. TLAST and TCRED are kept, and nothing else changes. -/
def Obligations.DetachLastPhaseResets : Prop :=
  ∀ (s : State) (k : DecIdx) (c : Command), s.seq = .busy c → c.phase = .d3 →
    encode (.decDetach k) = .command c.cmd →
    exec (.decDetach k) s = .next
      { s with
        dec := s.dec.set k.toNat
          { s.decAt k with attached := false, p0 := 0, p1 := 0, bitcnt := 0, acc := 0, cred := 0 }
        seq := .idle
        resp := s.resp ++ [0x00000000] }

/-- 42_wiegand_decoder.md sections 3 to 5 (R207, R208, R216): only the last phases DD3, A6 and D3 reset a decoder.
Every other phase of DEC.ATTACH and DEC.DETACH, the first one among them, leaves the bits in progress, the credential
and the two timestamps of every decoder as they are. -/
def Obligations.OnlyLastPhasesResetDecoders : Prop :=
  ∀ (s : State) (i : Instr) (k : DecIdx) (pa pb : Pin), i = .decAttach k pb pa ∨ i = .decDetach k →
    (∀ c, s.seq = .busy c → c.phase ≠ .dd3 ∧ c.phase ≠ .a6 ∧ c.phase ≠ .d3) →
    ∃ t, exec i s = .next t ∧
      ∀ j, (t.decAt j).bitcnt = (s.decAt j).bitcnt ∧ (t.decAt j).acc = (s.decAt j).acc ∧
        (t.decAt j).tlast = (s.decAt j).tlast ∧ (t.decAt j).cred = (s.decAt j).cred ∧
        (t.decAt j).tcred = (s.decAt j).tcred

/-- 20_memory.md section 3 (R91): while another command is in progress, a command is held: nothing changes. (What the
meaning of such a command does is deduced, log entry 9.) -/
def Obligations.CommandIsHeldWhileAnotherRuns : Prop :=
  ∀ (s : State) (c : Command) (i : Instr) (w : Word), s.seq = .busy c → encode i = .command w → w ≠ c.cmd →
    exec i s = .next s

/-! ## Whole-machine rules -/

/-- R214: no operation of the block clears a pull-up, and DEC.DETACH leaves every pull-up as it is. (The spec's decision
D29.) -/
def Obligations.PullupsAreNeverCleared : Prop :=
  (∀ (s t : State) (p : Pin), step s = .next t → s.pullupAt p = true → t.pullupAt p = true) ∧
  (∀ (s : State) (k : DecIdx), ∃ t, exec (.decDetach k) s = .next t ∧ t.pullup = s.pullup)

/-- 60_exceptions.md section 4 (R263), 42_wiegand_decoder.md section 3 (R205, R206): a host command never writes PREV,
`EVT`, TLAST or TCRED, nor the debug flag. -/
def Obligations.CommandsNeverWriteInterruptState : Prop :=
  ∀ (i : Instr) (w : Word) (s : State), encode i = .command w →
    ∃ t, exec i s = .next t ∧ t.prev = s.prev ∧ t.evt = s.evt ∧ t.assertFail = s.assertFail ∧
      ∀ k, (t.decAt k).tlast = (s.decAt k).tlast ∧ (t.decAt k).tcred = (s.decAt k).tcred

/-- 42_wiegand_decoder.md sections 4 to 6 and 41_listener_registry.md: a decoder command touches no other decoder, and a
registry command touches none. -/
def Obligations.CommandsTouchOnlyTheirDecoder : Prop :=
  ∀ (s : State) (k j : DecIdx) (pa pb : Pin) (h : Handle), j ≠ k →
    (∃ t, exec (.decAttach k pb pa) s = .next t ∧ t.decAt j = s.decAt j) ∧
    (∃ t, exec (.decDetach k) s = .next t ∧ t.decAt j = s.decAt j) ∧
    (∃ t, exec (.decGetid k) s = .next t ∧ t.decAt j = s.decAt j) ∧
    (∃ t, exec (.regAttach h pa) s = .next t ∧ t.dec = s.dec) ∧
    (∃ t, exec (.regDetach pa) s = .next t ∧ t.dec = s.dec)

/-- 60_exceptions.md section 1 (R240, R243), 42_wiegand_decoder.md section 6 (R223) and 10_state.md section 5 (R50):
every instruction of the table answers a next state, and none writes an input, a parameter or the script. (That the
parameters and the script stand in the state is the model's choice, log entries 1 and 3.) -/
def Obligations.InstructionsNeverWriteInputs : Prop :=
  ∀ (i : Instr) (s : State),
    ∃ t, exec i s = .next t ∧ t.cfg = s.cfg ∧ t.pinIn = s.pinIn ∧ t.time = s.time ∧ t.script = s.script

/-- 30_encoding.md section 3 (R118) and 93_implementation_defined.md (I17): a step of an instruction places no response
word and leaves a busy port busy, or it places one word and leaves the port free; in that word STATUS is not `0b11` and
bits 29:26 are 0. -/
def Obligations.OneLegalResponseFreesThePort : Prop :=
  ∀ (i : Instr) (s : State),
    ∃ t, exec i s = .next t ∧
      (t.resp = s.resp ∧ (t.seq = .idle → s.seq = .idle) ∨
        ∃ w, t.resp = s.resp ++ [w] ∧ t.seq = .idle ∧ w.extractLsb' 30 2 ≠ 3 ∧ w.extractLsb' 26 4 = 0)

/-- 10_state.md section 5 (R53) and R269: what the block has shown is never taken back: a step only appends to the
event stream and to the responses. (That the response port is kept as a list is the model's choice, log entry 7.) -/
def Obligations.OutputStreamsOnlyGrow : Prop :=
  ∀ s t : State, step s = .next t → (∃ e, t.evt = s.evt ++ e) ∧ ∃ r, t.resp = s.resp ++ r
end

