-- ==== Sys2Proof/Laws/Operands.lean ====
section
/-! SUPPORT. Pin indices against banks and bits (00_scope.md R14, R15), and single bits of a byte. -/

namespace Sys2Proof.Machine

theorem bankWidth_le (c : Config) (b : Bank) : bankWidth c b ≤ 8 := by
  have h0 := c.width0_range
  have h1 := c.width1_range
  have h2 := c.width2_range
  unfold bankWidth
  split
  · exact h0.2
  · exact h1.2
  · exact h2.2

theorem bankBase_add_width_le (c : Config) (b : Bank) : bankBase c b + bankWidth c b ≤ pinCount c := by
  fin_cases b <;> simp [bankBase, bankWidth, pinCount]
  omega

theorem pinCount_le (c : Config) : pinCount c ≤ 24 := by
  have h0 := c.width0_range
  have h1 := c.width1_range
  have h2 := c.width2_range
  unfold pinCount
  omega

theorem validPin_iff (c : Config) (p : Pin) : validPin c p = true ↔ p.toNat < pinCount c := by
  simp [validPin]

/-- The index of bit i of bank b is `BASE[b] + i` (R14); it never wraps, since a base is at most 16. -/
theorem pinAt_toNat (c : Config) (b : Bank) (i : Nat) (hi : i < 8) : (pinAt c b i).toNat = bankBase c b + i := by
  have h0 := c.width0_range
  have h1 := c.width1_range
  have hb : bankBase c b ≤ 16 := by
    unfold bankBase
    split <;> omega
  simp only [pinAt, BitVec.toNat_ofNat]
  omega

theorem validPin_pinAt (c : Config) (b : Bank) (i : Nat) (hi : i < bankWidth c b) : validPin c (pinAt c b i) = true := by
  have hw := bankWidth_le c b
  have hn := bankBase_add_width_le c b
  rw [validPin_iff, pinAt_toNat c b i (by omega)]
  omega

theorem bankOf_pinAt (c : Config) (b : Bank) (i : Nat) (hi : i < bankWidth c b) : bankOf c (pinAt c b i) = b := by
  have hw := bankWidth_le c b
  unfold bankOf
  rw [pinAt_toNat c b i (by omega)]
  revert hi
  fin_cases b <;> simp [bankBase, bankWidth] <;> omega

theorem bitOf_pinAt (c : Config) (b : Bank) (i : Nat) (hi : i < bankWidth c b) : bitOf c (pinAt c b i) = i := by
  have hw := bankWidth_le c b
  rw [bitOf, bankOf_pinAt c b i hi, pinAt_toNat c b i (by omega)]
  omega

theorem bankBase_bankOf_le (c : Config) (p : Pin) : bankBase c (bankOf c p) ≤ p.toNat := by
  unfold bankOf
  split
  · simp [bankBase]
  · split
    · simp [bankBase]; omega
    · simp [bankBase]; omega

/-- A valid index lies within its bank's width (R15). -/
theorem bitOf_lt_bankWidth (c : Config) (p : Pin) (h : validPin c p = true) : bitOf c p < bankWidth c (bankOf c p) := by
  rw [validPin_iff, pinCount] at h
  unfold bitOf bankOf
  split
  · simp [bankBase, bankWidth]; omega
  · split
    · simp [bankBase, bankWidth]; omega
    · simp [bankBase, bankWidth]; omega

theorem bitOf_lt_eight (c : Config) (p : Pin) (h : validPin c p = true) : bitOf c p < 8 :=
  Nat.lt_of_lt_of_le (bitOf_lt_bankWidth c p h) (bankWidth_le c _)

/-- A valid index is the index of its own bank and bit (R15). -/
theorem pinAt_bankOf_bitOf (c : Config) (p : Pin) (h : validPin c p = true) : pinAt c (bankOf c p) (bitOf c p) = p := by
  have hb := bankBase_bankOf_le c p
  apply BitVec.eq_of_toNat_eq
  rw [pinAt_toNat c _ _ (bitOf_lt_eight c p h), bitOf]
  omega

/-- Two valid indices with the same bank and bit are the same index (R15). -/
theorem pin_eq_of_bank_bit_eq (c : Config) (p q : Pin) (hp : validPin c p = true) (hq : validPin c q = true)
    (hbank : bankOf c p = bankOf c q) (hbit : bitOf c p = bitOf c q) : p = q := by
  rw [← pinAt_bankOf_bitOf c p hp, ← pinAt_bankOf_bitOf c q hq, hbank, hbit]

/-! ## Single bits of a byte -/

theorem getLsbD_bitMask (i j : Nat) (hi : i < 8) : (bitMask i).getLsbD j = decide (i = j) := by
  simp only [bitMask, BitVec.getLsbD_shiftLeft, BitVec.getLsbD_one]
  by_cases h : i = j
  · subst h; simp [hi]
  · simp [h]; omega

theorem getLsbD_setBit (m : Byte) (i j : Nat) (hi : i < 8) :
    (setBit m i).getLsbD j = (m.getLsbD j || decide (i = j)) := by
  simp [setBit, getLsbD_bitMask i j hi]

theorem getLsbD_clearBit (m : Byte) (i j : Nat) (hi : i < 8) :
    (clearBit m i).getLsbD j = (m.getLsbD j && !decide (i = j)) := by
  simp only [clearBit, BitVec.getLsbD_and, BitVec.getLsbD_not, getLsbD_bitMask i j hi]
  by_cases hj : j < 8
  · simp [hj]
  · simp [hj, BitVec.getLsbD_of_ge m j (by omega)]

theorem setBit_ne_zero (m : Byte) (i : Nat) (hi : i < 8) : setBit m i ≠ 0 := by
  intro h
  have := getLsbD_setBit m i i hi
  simp [h] at this

/-- Setting a bit that was just cleared is setting it. -/
theorem setBit_clearBit (m : Byte) (i : Nat) (hi : i < 8) : setBit (clearBit m i) i = setBit m i := by
  apply BitVec.eq_of_getLsbD_eq
  intro j _
  rw [getLsbD_setBit _ _ _ hi, getLsbD_clearBit _ _ _ hi, getLsbD_setBit _ _ _ hi]
  cases m.getLsbD j <;> cases decide (i = j) <;> rfl

theorem clearBit_of_bit_clear (m : Byte) (i : Nat) (hi : i < 8) (h : m.getLsbD i = false) : clearBit m i = m := by
  apply BitVec.eq_of_getLsbD_eq
  intro j _
  rw [getLsbD_clearBit _ _ _ hi]
  by_cases hj : i = j
  · subst hj; simp [h]
  · simp [hj]

/-! ## Handles -/

theorem handleIsExternal_decoderHandle : ∀ k : DecIdx, handleIsExternal (decoderHandle k) = false := by decide

theorem handleIndex_decoderHandle : ∀ k : DecIdx, handleIndex (decoderHandle k) = k := by decide

/-- `HDEC(k)` is a valid handle exactly when decoder k exists (R38). -/
theorem validHandle_decoderHandle (c : Config) (k : DecIdx) :
    validHandle c (decoderHandle k) = validDecoder c k := by
  simp [validHandle, handleIsExternal_decoderHandle, handleIndex_decoderHandle]

theorem eq_decoderHandle_iff : ∀ (h : Handle) (k : DecIdx),
    h = decoderHandle k ↔ handleIsExternal h = false ∧ handleIndex h = k := by decide

end Sys2Proof.Machine
end

