-- ==== Sys2Proof/Laws/State.lean ====
section
/-! SUPPORT. What each write of a state element leaves in each field and in each register read: one lemma per field
per update, true by definition, so that no later proof unfolds a record update. -/

namespace Sys2Proof.Machine

/-! ## Reading a register that was just written -/

@[simp] theorem State.setPinIn_samplePins (s : State) (b : Bank) (v : Byte) (c : Bank) :
    (s.setPinIn b v).samplePins c = if b = c then v else s.samplePins c := by
  simp only [State.samplePins, State.setPinIn, Fin.getElem_fin, Vector.getElem_set, Fin.ext_iff]

@[simp] theorem State.setPrev_prevAt (s : State) (b : Bank) (v : Byte) (c : Bank) :
    (s.setPrev b v).prevAt c = if b = c then v else s.prevAt c := by
  simp only [State.prevAt, State.setPrev, Fin.getElem_fin, Vector.getElem_set, Fin.ext_iff]

@[simp] theorem State.setMask_maskAt (s : State) (b : Bank) (v : Byte) (c : Bank) :
    (s.setMask b v).maskAt c = if b = c then v else s.maskAt c := by
  simp only [State.maskAt, State.setMask, Fin.getElem_fin, Vector.getElem_set, Fin.ext_iff]

@[simp] theorem State.setTrigEn_trigEnAt (s : State) (b : Bank) (v : Bool) (c : Bank) :
    (s.setTrigEn b v).trigEnAt c = if b = c then v else s.trigEnAt c := by
  simp only [State.trigEnAt, State.setTrigEn, Fin.getElem_fin, Vector.getElem_set, Fin.ext_iff]

@[simp] theorem State.setLvalid_lvalidAt (s : State) (p : Pin) (v : Bool) (q : Pin) :
    (s.setLvalid p v).lvalidAt q = if p = q then v else s.lvalidAt q := by
  simp only [State.lvalidAt, State.setLvalid, Vector.getElem_set, BitVec.toNat_inj]

@[simp] theorem State.setListener_listenerAt (s : State) (p : Pin) (h : Handle) (q : Pin) :
    (s.setListener p h).listenerAt q = if p = q then h else s.listenerAt q := by
  simp only [State.listenerAt, State.setListener, Vector.getElem_set, BitVec.toNat_inj]

@[simp] theorem State.setPullup_pullupAt (s : State) (p : Pin) (v : Bool) (q : Pin) :
    (s.setPullup p v).pullupAt q = if p = q then v else s.pullupAt q := by
  simp only [State.pullupAt, State.setPullup, Vector.getElem_set, BitVec.toNat_inj]

@[simp] theorem State.setDec_decAt (s : State) (k : DecIdx) (d : Decoder) (j : DecIdx) :
    (s.setDec k d).decAt j = if k = j then d else s.decAt j := by
  simp only [State.decAt, State.setDec, Vector.getElem_set, BitVec.toNat_inj]

/-! ## setPinIn -/

@[simp] theorem State.setPinIn_cfg (s : State) (b : Bank) (v : Byte) : (s.setPinIn b v).cfg = s.cfg := rfl
@[simp] theorem State.setPinIn_pinIn (s : State) (b : Bank) (v : Byte) : (s.setPinIn b v).pinIn = s.pinIn.set b v := rfl
@[simp] theorem State.setPinIn_time (s : State) (b : Bank) (v : Byte) : (s.setPinIn b v).time = s.time := rfl
@[simp] theorem State.setPinIn_script (s : State) (b : Bank) (v : Byte) : (s.setPinIn b v).script = s.script := rfl
@[simp] theorem State.setPinIn_prev (s : State) (b : Bank) (v : Byte) : (s.setPinIn b v).prev = s.prev := rfl
@[simp] theorem State.setPinIn_mask (s : State) (b : Bank) (v : Byte) : (s.setPinIn b v).mask = s.mask := rfl
@[simp] theorem State.setPinIn_trigEn (s : State) (b : Bank) (v : Byte) : (s.setPinIn b v).trigEn = s.trigEn := rfl
@[simp] theorem State.setPinIn_lvalid (s : State) (b : Bank) (v : Byte) : (s.setPinIn b v).lvalid = s.lvalid := rfl
@[simp] theorem State.setPinIn_listener (s : State) (b : Bank) (v : Byte) : (s.setPinIn b v).listener = s.listener := rfl
@[simp] theorem State.setPinIn_pullup (s : State) (b : Bank) (v : Byte) : (s.setPinIn b v).pullup = s.pullup := rfl
@[simp] theorem State.setPinIn_dec (s : State) (b : Bank) (v : Byte) : (s.setPinIn b v).dec = s.dec := rfl
@[simp] theorem State.setPinIn_seq (s : State) (b : Bank) (v : Byte) : (s.setPinIn b v).seq = s.seq := rfl
@[simp] theorem State.setPinIn_resp (s : State) (b : Bank) (v : Byte) : (s.setPinIn b v).resp = s.resp := rfl
@[simp] theorem State.setPinIn_evt (s : State) (b : Bank) (v : Byte) : (s.setPinIn b v).evt = s.evt := rfl
@[simp] theorem State.setPinIn_assertFail (s : State) (b : Bank) (v : Byte) : (s.setPinIn b v).assertFail = s.assertFail := rfl
@[simp] theorem State.setPinIn_prevAt (s : State) (b : Bank) (v : Byte) (x : Bank) : (s.setPinIn b v).prevAt x = s.prevAt x := rfl
@[simp] theorem State.setPinIn_maskAt (s : State) (b : Bank) (v : Byte) (x : Bank) : (s.setPinIn b v).maskAt x = s.maskAt x := rfl
@[simp] theorem State.setPinIn_trigEnAt (s : State) (b : Bank) (v : Byte) (x : Bank) : (s.setPinIn b v).trigEnAt x = s.trigEnAt x := rfl
@[simp] theorem State.setPinIn_lvalidAt (s : State) (b : Bank) (v : Byte) (x : Pin) : (s.setPinIn b v).lvalidAt x = s.lvalidAt x := rfl
@[simp] theorem State.setPinIn_listenerAt (s : State) (b : Bank) (v : Byte) (x : Pin) : (s.setPinIn b v).listenerAt x = s.listenerAt x := rfl
@[simp] theorem State.setPinIn_pullupAt (s : State) (b : Bank) (v : Byte) (x : Pin) : (s.setPinIn b v).pullupAt x = s.pullupAt x := rfl
@[simp] theorem State.setPinIn_decAt (s : State) (b : Bank) (v : Byte) (x : DecIdx) : (s.setPinIn b v).decAt x = s.decAt x := rfl
@[simp] theorem State.setPinIn_now (s : State) (b : Bank) (v : Byte) : (s.setPinIn b v).now = s.now := rfl

/-! ## setTime -/

@[simp] theorem State.setTime_cfg (s : State) (t : Time) : (s.setTime t).cfg = s.cfg := rfl
@[simp] theorem State.setTime_pinIn (s : State) (t : Time) : (s.setTime t).pinIn = s.pinIn := rfl
@[simp] theorem State.setTime_time (s : State) (t : Time) : (s.setTime t).time = t := rfl
@[simp] theorem State.setTime_script (s : State) (t : Time) : (s.setTime t).script = s.script := rfl
@[simp] theorem State.setTime_prev (s : State) (t : Time) : (s.setTime t).prev = s.prev := rfl
@[simp] theorem State.setTime_mask (s : State) (t : Time) : (s.setTime t).mask = s.mask := rfl
@[simp] theorem State.setTime_trigEn (s : State) (t : Time) : (s.setTime t).trigEn = s.trigEn := rfl
@[simp] theorem State.setTime_lvalid (s : State) (t : Time) : (s.setTime t).lvalid = s.lvalid := rfl
@[simp] theorem State.setTime_listener (s : State) (t : Time) : (s.setTime t).listener = s.listener := rfl
@[simp] theorem State.setTime_pullup (s : State) (t : Time) : (s.setTime t).pullup = s.pullup := rfl
@[simp] theorem State.setTime_dec (s : State) (t : Time) : (s.setTime t).dec = s.dec := rfl
@[simp] theorem State.setTime_seq (s : State) (t : Time) : (s.setTime t).seq = s.seq := rfl
@[simp] theorem State.setTime_resp (s : State) (t : Time) : (s.setTime t).resp = s.resp := rfl
@[simp] theorem State.setTime_evt (s : State) (t : Time) : (s.setTime t).evt = s.evt := rfl
@[simp] theorem State.setTime_assertFail (s : State) (t : Time) : (s.setTime t).assertFail = s.assertFail := rfl
@[simp] theorem State.setTime_prevAt (s : State) (t : Time) (x : Bank) : (s.setTime t).prevAt x = s.prevAt x := rfl
@[simp] theorem State.setTime_maskAt (s : State) (t : Time) (x : Bank) : (s.setTime t).maskAt x = s.maskAt x := rfl
@[simp] theorem State.setTime_trigEnAt (s : State) (t : Time) (x : Bank) : (s.setTime t).trigEnAt x = s.trigEnAt x := rfl
@[simp] theorem State.setTime_lvalidAt (s : State) (t : Time) (x : Pin) : (s.setTime t).lvalidAt x = s.lvalidAt x := rfl
@[simp] theorem State.setTime_listenerAt (s : State) (t : Time) (x : Pin) : (s.setTime t).listenerAt x = s.listenerAt x := rfl
@[simp] theorem State.setTime_pullupAt (s : State) (t : Time) (x : Pin) : (s.setTime t).pullupAt x = s.pullupAt x := rfl
@[simp] theorem State.setTime_decAt (s : State) (t : Time) (x : DecIdx) : (s.setTime t).decAt x = s.decAt x := rfl
@[simp] theorem State.setTime_samplePins (s : State) (t : Time) (x : Bank) : (s.setTime t).samplePins x = s.samplePins x := rfl
@[simp] theorem State.setTime_now (s : State) (t : Time) : (s.setTime t).now = t := rfl

/-! ## setScript -/

@[simp] theorem State.setScript_cfg (s : State) (l : List Input) : (s.setScript l).cfg = s.cfg := rfl
@[simp] theorem State.setScript_pinIn (s : State) (l : List Input) : (s.setScript l).pinIn = s.pinIn := rfl
@[simp] theorem State.setScript_time (s : State) (l : List Input) : (s.setScript l).time = s.time := rfl
@[simp] theorem State.setScript_script (s : State) (l : List Input) : (s.setScript l).script = l := rfl
@[simp] theorem State.setScript_prev (s : State) (l : List Input) : (s.setScript l).prev = s.prev := rfl
@[simp] theorem State.setScript_mask (s : State) (l : List Input) : (s.setScript l).mask = s.mask := rfl
@[simp] theorem State.setScript_trigEn (s : State) (l : List Input) : (s.setScript l).trigEn = s.trigEn := rfl
@[simp] theorem State.setScript_lvalid (s : State) (l : List Input) : (s.setScript l).lvalid = s.lvalid := rfl
@[simp] theorem State.setScript_listener (s : State) (l : List Input) : (s.setScript l).listener = s.listener := rfl
@[simp] theorem State.setScript_pullup (s : State) (l : List Input) : (s.setScript l).pullup = s.pullup := rfl
@[simp] theorem State.setScript_dec (s : State) (l : List Input) : (s.setScript l).dec = s.dec := rfl
@[simp] theorem State.setScript_seq (s : State) (l : List Input) : (s.setScript l).seq = s.seq := rfl
@[simp] theorem State.setScript_resp (s : State) (l : List Input) : (s.setScript l).resp = s.resp := rfl
@[simp] theorem State.setScript_evt (s : State) (l : List Input) : (s.setScript l).evt = s.evt := rfl
@[simp] theorem State.setScript_assertFail (s : State) (l : List Input) : (s.setScript l).assertFail = s.assertFail := rfl
@[simp] theorem State.setScript_prevAt (s : State) (l : List Input) (x : Bank) : (s.setScript l).prevAt x = s.prevAt x := rfl
@[simp] theorem State.setScript_maskAt (s : State) (l : List Input) (x : Bank) : (s.setScript l).maskAt x = s.maskAt x := rfl
@[simp] theorem State.setScript_trigEnAt (s : State) (l : List Input) (x : Bank) : (s.setScript l).trigEnAt x = s.trigEnAt x := rfl
@[simp] theorem State.setScript_lvalidAt (s : State) (l : List Input) (x : Pin) : (s.setScript l).lvalidAt x = s.lvalidAt x := rfl
@[simp] theorem State.setScript_listenerAt (s : State) (l : List Input) (x : Pin) : (s.setScript l).listenerAt x = s.listenerAt x := rfl
@[simp] theorem State.setScript_pullupAt (s : State) (l : List Input) (x : Pin) : (s.setScript l).pullupAt x = s.pullupAt x := rfl
@[simp] theorem State.setScript_decAt (s : State) (l : List Input) (x : DecIdx) : (s.setScript l).decAt x = s.decAt x := rfl
@[simp] theorem State.setScript_samplePins (s : State) (l : List Input) (x : Bank) : (s.setScript l).samplePins x = s.samplePins x := rfl
@[simp] theorem State.setScript_now (s : State) (l : List Input) : (s.setScript l).now = s.now := rfl

/-! ## setPrev -/

@[simp] theorem State.setPrev_cfg (s : State) (b : Bank) (v : Byte) : (s.setPrev b v).cfg = s.cfg := rfl
@[simp] theorem State.setPrev_pinIn (s : State) (b : Bank) (v : Byte) : (s.setPrev b v).pinIn = s.pinIn := rfl
@[simp] theorem State.setPrev_time (s : State) (b : Bank) (v : Byte) : (s.setPrev b v).time = s.time := rfl
@[simp] theorem State.setPrev_script (s : State) (b : Bank) (v : Byte) : (s.setPrev b v).script = s.script := rfl
@[simp] theorem State.setPrev_prev (s : State) (b : Bank) (v : Byte) : (s.setPrev b v).prev = s.prev.set b v := rfl
@[simp] theorem State.setPrev_mask (s : State) (b : Bank) (v : Byte) : (s.setPrev b v).mask = s.mask := rfl
@[simp] theorem State.setPrev_trigEn (s : State) (b : Bank) (v : Byte) : (s.setPrev b v).trigEn = s.trigEn := rfl
@[simp] theorem State.setPrev_lvalid (s : State) (b : Bank) (v : Byte) : (s.setPrev b v).lvalid = s.lvalid := rfl
@[simp] theorem State.setPrev_listener (s : State) (b : Bank) (v : Byte) : (s.setPrev b v).listener = s.listener := rfl
@[simp] theorem State.setPrev_pullup (s : State) (b : Bank) (v : Byte) : (s.setPrev b v).pullup = s.pullup := rfl
@[simp] theorem State.setPrev_dec (s : State) (b : Bank) (v : Byte) : (s.setPrev b v).dec = s.dec := rfl
@[simp] theorem State.setPrev_seq (s : State) (b : Bank) (v : Byte) : (s.setPrev b v).seq = s.seq := rfl
@[simp] theorem State.setPrev_resp (s : State) (b : Bank) (v : Byte) : (s.setPrev b v).resp = s.resp := rfl
@[simp] theorem State.setPrev_evt (s : State) (b : Bank) (v : Byte) : (s.setPrev b v).evt = s.evt := rfl
@[simp] theorem State.setPrev_assertFail (s : State) (b : Bank) (v : Byte) : (s.setPrev b v).assertFail = s.assertFail := rfl
@[simp] theorem State.setPrev_maskAt (s : State) (b : Bank) (v : Byte) (x : Bank) : (s.setPrev b v).maskAt x = s.maskAt x := rfl
@[simp] theorem State.setPrev_trigEnAt (s : State) (b : Bank) (v : Byte) (x : Bank) : (s.setPrev b v).trigEnAt x = s.trigEnAt x := rfl
@[simp] theorem State.setPrev_lvalidAt (s : State) (b : Bank) (v : Byte) (x : Pin) : (s.setPrev b v).lvalidAt x = s.lvalidAt x := rfl
@[simp] theorem State.setPrev_listenerAt (s : State) (b : Bank) (v : Byte) (x : Pin) : (s.setPrev b v).listenerAt x = s.listenerAt x := rfl
@[simp] theorem State.setPrev_pullupAt (s : State) (b : Bank) (v : Byte) (x : Pin) : (s.setPrev b v).pullupAt x = s.pullupAt x := rfl
@[simp] theorem State.setPrev_decAt (s : State) (b : Bank) (v : Byte) (x : DecIdx) : (s.setPrev b v).decAt x = s.decAt x := rfl
@[simp] theorem State.setPrev_samplePins (s : State) (b : Bank) (v : Byte) (x : Bank) : (s.setPrev b v).samplePins x = s.samplePins x := rfl
@[simp] theorem State.setPrev_now (s : State) (b : Bank) (v : Byte) : (s.setPrev b v).now = s.now := rfl

/-! ## setMask -/

@[simp] theorem State.setMask_cfg (s : State) (b : Bank) (v : Byte) : (s.setMask b v).cfg = s.cfg := rfl
@[simp] theorem State.setMask_pinIn (s : State) (b : Bank) (v : Byte) : (s.setMask b v).pinIn = s.pinIn := rfl
@[simp] theorem State.setMask_time (s : State) (b : Bank) (v : Byte) : (s.setMask b v).time = s.time := rfl
@[simp] theorem State.setMask_script (s : State) (b : Bank) (v : Byte) : (s.setMask b v).script = s.script := rfl
@[simp] theorem State.setMask_prev (s : State) (b : Bank) (v : Byte) : (s.setMask b v).prev = s.prev := rfl
@[simp] theorem State.setMask_mask (s : State) (b : Bank) (v : Byte) : (s.setMask b v).mask = s.mask.set b v := rfl
@[simp] theorem State.setMask_trigEn (s : State) (b : Bank) (v : Byte) : (s.setMask b v).trigEn = s.trigEn := rfl
@[simp] theorem State.setMask_lvalid (s : State) (b : Bank) (v : Byte) : (s.setMask b v).lvalid = s.lvalid := rfl
@[simp] theorem State.setMask_listener (s : State) (b : Bank) (v : Byte) : (s.setMask b v).listener = s.listener := rfl
@[simp] theorem State.setMask_pullup (s : State) (b : Bank) (v : Byte) : (s.setMask b v).pullup = s.pullup := rfl
@[simp] theorem State.setMask_dec (s : State) (b : Bank) (v : Byte) : (s.setMask b v).dec = s.dec := rfl
@[simp] theorem State.setMask_seq (s : State) (b : Bank) (v : Byte) : (s.setMask b v).seq = s.seq := rfl
@[simp] theorem State.setMask_resp (s : State) (b : Bank) (v : Byte) : (s.setMask b v).resp = s.resp := rfl
@[simp] theorem State.setMask_evt (s : State) (b : Bank) (v : Byte) : (s.setMask b v).evt = s.evt := rfl
@[simp] theorem State.setMask_assertFail (s : State) (b : Bank) (v : Byte) : (s.setMask b v).assertFail = s.assertFail := rfl
@[simp] theorem State.setMask_prevAt (s : State) (b : Bank) (v : Byte) (x : Bank) : (s.setMask b v).prevAt x = s.prevAt x := rfl
@[simp] theorem State.setMask_trigEnAt (s : State) (b : Bank) (v : Byte) (x : Bank) : (s.setMask b v).trigEnAt x = s.trigEnAt x := rfl
@[simp] theorem State.setMask_lvalidAt (s : State) (b : Bank) (v : Byte) (x : Pin) : (s.setMask b v).lvalidAt x = s.lvalidAt x := rfl
@[simp] theorem State.setMask_listenerAt (s : State) (b : Bank) (v : Byte) (x : Pin) : (s.setMask b v).listenerAt x = s.listenerAt x := rfl
@[simp] theorem State.setMask_pullupAt (s : State) (b : Bank) (v : Byte) (x : Pin) : (s.setMask b v).pullupAt x = s.pullupAt x := rfl
@[simp] theorem State.setMask_decAt (s : State) (b : Bank) (v : Byte) (x : DecIdx) : (s.setMask b v).decAt x = s.decAt x := rfl
@[simp] theorem State.setMask_samplePins (s : State) (b : Bank) (v : Byte) (x : Bank) : (s.setMask b v).samplePins x = s.samplePins x := rfl
@[simp] theorem State.setMask_now (s : State) (b : Bank) (v : Byte) : (s.setMask b v).now = s.now := rfl

/-! ## setTrigEn -/

@[simp] theorem State.setTrigEn_cfg (s : State) (b : Bank) (v : Bool) : (s.setTrigEn b v).cfg = s.cfg := rfl
@[simp] theorem State.setTrigEn_pinIn (s : State) (b : Bank) (v : Bool) : (s.setTrigEn b v).pinIn = s.pinIn := rfl
@[simp] theorem State.setTrigEn_time (s : State) (b : Bank) (v : Bool) : (s.setTrigEn b v).time = s.time := rfl
@[simp] theorem State.setTrigEn_script (s : State) (b : Bank) (v : Bool) : (s.setTrigEn b v).script = s.script := rfl
@[simp] theorem State.setTrigEn_prev (s : State) (b : Bank) (v : Bool) : (s.setTrigEn b v).prev = s.prev := rfl
@[simp] theorem State.setTrigEn_mask (s : State) (b : Bank) (v : Bool) : (s.setTrigEn b v).mask = s.mask := rfl
@[simp] theorem State.setTrigEn_trigEn (s : State) (b : Bank) (v : Bool) : (s.setTrigEn b v).trigEn = s.trigEn.set b v := rfl
@[simp] theorem State.setTrigEn_lvalid (s : State) (b : Bank) (v : Bool) : (s.setTrigEn b v).lvalid = s.lvalid := rfl
@[simp] theorem State.setTrigEn_listener (s : State) (b : Bank) (v : Bool) : (s.setTrigEn b v).listener = s.listener := rfl
@[simp] theorem State.setTrigEn_pullup (s : State) (b : Bank) (v : Bool) : (s.setTrigEn b v).pullup = s.pullup := rfl
@[simp] theorem State.setTrigEn_dec (s : State) (b : Bank) (v : Bool) : (s.setTrigEn b v).dec = s.dec := rfl
@[simp] theorem State.setTrigEn_seq (s : State) (b : Bank) (v : Bool) : (s.setTrigEn b v).seq = s.seq := rfl
@[simp] theorem State.setTrigEn_resp (s : State) (b : Bank) (v : Bool) : (s.setTrigEn b v).resp = s.resp := rfl
@[simp] theorem State.setTrigEn_evt (s : State) (b : Bank) (v : Bool) : (s.setTrigEn b v).evt = s.evt := rfl
@[simp] theorem State.setTrigEn_assertFail (s : State) (b : Bank) (v : Bool) : (s.setTrigEn b v).assertFail = s.assertFail := rfl
@[simp] theorem State.setTrigEn_prevAt (s : State) (b : Bank) (v : Bool) (x : Bank) : (s.setTrigEn b v).prevAt x = s.prevAt x := rfl
@[simp] theorem State.setTrigEn_maskAt (s : State) (b : Bank) (v : Bool) (x : Bank) : (s.setTrigEn b v).maskAt x = s.maskAt x := rfl
@[simp] theorem State.setTrigEn_lvalidAt (s : State) (b : Bank) (v : Bool) (x : Pin) : (s.setTrigEn b v).lvalidAt x = s.lvalidAt x := rfl
@[simp] theorem State.setTrigEn_listenerAt (s : State) (b : Bank) (v : Bool) (x : Pin) : (s.setTrigEn b v).listenerAt x = s.listenerAt x := rfl
@[simp] theorem State.setTrigEn_pullupAt (s : State) (b : Bank) (v : Bool) (x : Pin) : (s.setTrigEn b v).pullupAt x = s.pullupAt x := rfl
@[simp] theorem State.setTrigEn_decAt (s : State) (b : Bank) (v : Bool) (x : DecIdx) : (s.setTrigEn b v).decAt x = s.decAt x := rfl
@[simp] theorem State.setTrigEn_samplePins (s : State) (b : Bank) (v : Bool) (x : Bank) : (s.setTrigEn b v).samplePins x = s.samplePins x := rfl
@[simp] theorem State.setTrigEn_now (s : State) (b : Bank) (v : Bool) : (s.setTrigEn b v).now = s.now := rfl

/-! ## setLvalid -/

@[simp] theorem State.setLvalid_cfg (s : State) (p : Pin) (v : Bool) : (s.setLvalid p v).cfg = s.cfg := rfl
@[simp] theorem State.setLvalid_pinIn (s : State) (p : Pin) (v : Bool) : (s.setLvalid p v).pinIn = s.pinIn := rfl
@[simp] theorem State.setLvalid_time (s : State) (p : Pin) (v : Bool) : (s.setLvalid p v).time = s.time := rfl
@[simp] theorem State.setLvalid_script (s : State) (p : Pin) (v : Bool) : (s.setLvalid p v).script = s.script := rfl
@[simp] theorem State.setLvalid_prev (s : State) (p : Pin) (v : Bool) : (s.setLvalid p v).prev = s.prev := rfl
@[simp] theorem State.setLvalid_mask (s : State) (p : Pin) (v : Bool) : (s.setLvalid p v).mask = s.mask := rfl
@[simp] theorem State.setLvalid_trigEn (s : State) (p : Pin) (v : Bool) : (s.setLvalid p v).trigEn = s.trigEn := rfl
@[simp] theorem State.setLvalid_lvalid (s : State) (p : Pin) (v : Bool) : (s.setLvalid p v).lvalid = s.lvalid.set p.toNat v := rfl
@[simp] theorem State.setLvalid_listener (s : State) (p : Pin) (v : Bool) : (s.setLvalid p v).listener = s.listener := rfl
@[simp] theorem State.setLvalid_pullup (s : State) (p : Pin) (v : Bool) : (s.setLvalid p v).pullup = s.pullup := rfl
@[simp] theorem State.setLvalid_dec (s : State) (p : Pin) (v : Bool) : (s.setLvalid p v).dec = s.dec := rfl
@[simp] theorem State.setLvalid_seq (s : State) (p : Pin) (v : Bool) : (s.setLvalid p v).seq = s.seq := rfl
@[simp] theorem State.setLvalid_resp (s : State) (p : Pin) (v : Bool) : (s.setLvalid p v).resp = s.resp := rfl
@[simp] theorem State.setLvalid_evt (s : State) (p : Pin) (v : Bool) : (s.setLvalid p v).evt = s.evt := rfl
@[simp] theorem State.setLvalid_assertFail (s : State) (p : Pin) (v : Bool) : (s.setLvalid p v).assertFail = s.assertFail := rfl
@[simp] theorem State.setLvalid_prevAt (s : State) (p : Pin) (v : Bool) (x : Bank) : (s.setLvalid p v).prevAt x = s.prevAt x := rfl
@[simp] theorem State.setLvalid_maskAt (s : State) (p : Pin) (v : Bool) (x : Bank) : (s.setLvalid p v).maskAt x = s.maskAt x := rfl
@[simp] theorem State.setLvalid_trigEnAt (s : State) (p : Pin) (v : Bool) (x : Bank) : (s.setLvalid p v).trigEnAt x = s.trigEnAt x := rfl
@[simp] theorem State.setLvalid_listenerAt (s : State) (p : Pin) (v : Bool) (x : Pin) : (s.setLvalid p v).listenerAt x = s.listenerAt x := rfl
@[simp] theorem State.setLvalid_pullupAt (s : State) (p : Pin) (v : Bool) (x : Pin) : (s.setLvalid p v).pullupAt x = s.pullupAt x := rfl
@[simp] theorem State.setLvalid_decAt (s : State) (p : Pin) (v : Bool) (x : DecIdx) : (s.setLvalid p v).decAt x = s.decAt x := rfl
@[simp] theorem State.setLvalid_samplePins (s : State) (p : Pin) (v : Bool) (x : Bank) : (s.setLvalid p v).samplePins x = s.samplePins x := rfl
@[simp] theorem State.setLvalid_now (s : State) (p : Pin) (v : Bool) : (s.setLvalid p v).now = s.now := rfl

/-! ## setListener -/

@[simp] theorem State.setListener_cfg (s : State) (p : Pin) (h : Handle) : (s.setListener p h).cfg = s.cfg := rfl
@[simp] theorem State.setListener_pinIn (s : State) (p : Pin) (h : Handle) : (s.setListener p h).pinIn = s.pinIn := rfl
@[simp] theorem State.setListener_time (s : State) (p : Pin) (h : Handle) : (s.setListener p h).time = s.time := rfl
@[simp] theorem State.setListener_script (s : State) (p : Pin) (h : Handle) : (s.setListener p h).script = s.script := rfl
@[simp] theorem State.setListener_prev (s : State) (p : Pin) (h : Handle) : (s.setListener p h).prev = s.prev := rfl
@[simp] theorem State.setListener_mask (s : State) (p : Pin) (h : Handle) : (s.setListener p h).mask = s.mask := rfl
@[simp] theorem State.setListener_trigEn (s : State) (p : Pin) (h : Handle) : (s.setListener p h).trigEn = s.trigEn := rfl
@[simp] theorem State.setListener_lvalid (s : State) (p : Pin) (h : Handle) : (s.setListener p h).lvalid = s.lvalid := rfl
@[simp] theorem State.setListener_listener (s : State) (p : Pin) (h : Handle) : (s.setListener p h).listener = s.listener.set p.toNat h := rfl
@[simp] theorem State.setListener_pullup (s : State) (p : Pin) (h : Handle) : (s.setListener p h).pullup = s.pullup := rfl
@[simp] theorem State.setListener_dec (s : State) (p : Pin) (h : Handle) : (s.setListener p h).dec = s.dec := rfl
@[simp] theorem State.setListener_seq (s : State) (p : Pin) (h : Handle) : (s.setListener p h).seq = s.seq := rfl
@[simp] theorem State.setListener_resp (s : State) (p : Pin) (h : Handle) : (s.setListener p h).resp = s.resp := rfl
@[simp] theorem State.setListener_evt (s : State) (p : Pin) (h : Handle) : (s.setListener p h).evt = s.evt := rfl
@[simp] theorem State.setListener_assertFail (s : State) (p : Pin) (h : Handle) : (s.setListener p h).assertFail = s.assertFail := rfl
@[simp] theorem State.setListener_prevAt (s : State) (p : Pin) (h : Handle) (x : Bank) : (s.setListener p h).prevAt x = s.prevAt x := rfl
@[simp] theorem State.setListener_maskAt (s : State) (p : Pin) (h : Handle) (x : Bank) : (s.setListener p h).maskAt x = s.maskAt x := rfl
@[simp] theorem State.setListener_trigEnAt (s : State) (p : Pin) (h : Handle) (x : Bank) : (s.setListener p h).trigEnAt x = s.trigEnAt x := rfl
@[simp] theorem State.setListener_lvalidAt (s : State) (p : Pin) (h : Handle) (x : Pin) : (s.setListener p h).lvalidAt x = s.lvalidAt x := rfl
@[simp] theorem State.setListener_pullupAt (s : State) (p : Pin) (h : Handle) (x : Pin) : (s.setListener p h).pullupAt x = s.pullupAt x := rfl
@[simp] theorem State.setListener_decAt (s : State) (p : Pin) (h : Handle) (x : DecIdx) : (s.setListener p h).decAt x = s.decAt x := rfl
@[simp] theorem State.setListener_samplePins (s : State) (p : Pin) (h : Handle) (x : Bank) : (s.setListener p h).samplePins x = s.samplePins x := rfl
@[simp] theorem State.setListener_now (s : State) (p : Pin) (h : Handle) : (s.setListener p h).now = s.now := rfl

/-! ## setPullup -/

@[simp] theorem State.setPullup_cfg (s : State) (p : Pin) (v : Bool) : (s.setPullup p v).cfg = s.cfg := rfl
@[simp] theorem State.setPullup_pinIn (s : State) (p : Pin) (v : Bool) : (s.setPullup p v).pinIn = s.pinIn := rfl
@[simp] theorem State.setPullup_time (s : State) (p : Pin) (v : Bool) : (s.setPullup p v).time = s.time := rfl
@[simp] theorem State.setPullup_script (s : State) (p : Pin) (v : Bool) : (s.setPullup p v).script = s.script := rfl
@[simp] theorem State.setPullup_prev (s : State) (p : Pin) (v : Bool) : (s.setPullup p v).prev = s.prev := rfl
@[simp] theorem State.setPullup_mask (s : State) (p : Pin) (v : Bool) : (s.setPullup p v).mask = s.mask := rfl
@[simp] theorem State.setPullup_trigEn (s : State) (p : Pin) (v : Bool) : (s.setPullup p v).trigEn = s.trigEn := rfl
@[simp] theorem State.setPullup_lvalid (s : State) (p : Pin) (v : Bool) : (s.setPullup p v).lvalid = s.lvalid := rfl
@[simp] theorem State.setPullup_listener (s : State) (p : Pin) (v : Bool) : (s.setPullup p v).listener = s.listener := rfl
@[simp] theorem State.setPullup_pullup (s : State) (p : Pin) (v : Bool) : (s.setPullup p v).pullup = s.pullup.set p.toNat v := rfl
@[simp] theorem State.setPullup_dec (s : State) (p : Pin) (v : Bool) : (s.setPullup p v).dec = s.dec := rfl
@[simp] theorem State.setPullup_seq (s : State) (p : Pin) (v : Bool) : (s.setPullup p v).seq = s.seq := rfl
@[simp] theorem State.setPullup_resp (s : State) (p : Pin) (v : Bool) : (s.setPullup p v).resp = s.resp := rfl
@[simp] theorem State.setPullup_evt (s : State) (p : Pin) (v : Bool) : (s.setPullup p v).evt = s.evt := rfl
@[simp] theorem State.setPullup_assertFail (s : State) (p : Pin) (v : Bool) : (s.setPullup p v).assertFail = s.assertFail := rfl
@[simp] theorem State.setPullup_prevAt (s : State) (p : Pin) (v : Bool) (x : Bank) : (s.setPullup p v).prevAt x = s.prevAt x := rfl
@[simp] theorem State.setPullup_maskAt (s : State) (p : Pin) (v : Bool) (x : Bank) : (s.setPullup p v).maskAt x = s.maskAt x := rfl
@[simp] theorem State.setPullup_trigEnAt (s : State) (p : Pin) (v : Bool) (x : Bank) : (s.setPullup p v).trigEnAt x = s.trigEnAt x := rfl
@[simp] theorem State.setPullup_lvalidAt (s : State) (p : Pin) (v : Bool) (x : Pin) : (s.setPullup p v).lvalidAt x = s.lvalidAt x := rfl
@[simp] theorem State.setPullup_listenerAt (s : State) (p : Pin) (v : Bool) (x : Pin) : (s.setPullup p v).listenerAt x = s.listenerAt x := rfl
@[simp] theorem State.setPullup_decAt (s : State) (p : Pin) (v : Bool) (x : DecIdx) : (s.setPullup p v).decAt x = s.decAt x := rfl
@[simp] theorem State.setPullup_samplePins (s : State) (p : Pin) (v : Bool) (x : Bank) : (s.setPullup p v).samplePins x = s.samplePins x := rfl
@[simp] theorem State.setPullup_now (s : State) (p : Pin) (v : Bool) : (s.setPullup p v).now = s.now := rfl

/-! ## setDec -/

@[simp] theorem State.setDec_cfg (s : State) (k : DecIdx) (d : Decoder) : (s.setDec k d).cfg = s.cfg := rfl
@[simp] theorem State.setDec_pinIn (s : State) (k : DecIdx) (d : Decoder) : (s.setDec k d).pinIn = s.pinIn := rfl
@[simp] theorem State.setDec_time (s : State) (k : DecIdx) (d : Decoder) : (s.setDec k d).time = s.time := rfl
@[simp] theorem State.setDec_script (s : State) (k : DecIdx) (d : Decoder) : (s.setDec k d).script = s.script := rfl
@[simp] theorem State.setDec_prev (s : State) (k : DecIdx) (d : Decoder) : (s.setDec k d).prev = s.prev := rfl
@[simp] theorem State.setDec_mask (s : State) (k : DecIdx) (d : Decoder) : (s.setDec k d).mask = s.mask := rfl
@[simp] theorem State.setDec_trigEn (s : State) (k : DecIdx) (d : Decoder) : (s.setDec k d).trigEn = s.trigEn := rfl
@[simp] theorem State.setDec_lvalid (s : State) (k : DecIdx) (d : Decoder) : (s.setDec k d).lvalid = s.lvalid := rfl
@[simp] theorem State.setDec_listener (s : State) (k : DecIdx) (d : Decoder) : (s.setDec k d).listener = s.listener := rfl
@[simp] theorem State.setDec_pullup (s : State) (k : DecIdx) (d : Decoder) : (s.setDec k d).pullup = s.pullup := rfl
@[simp] theorem State.setDec_dec (s : State) (k : DecIdx) (d : Decoder) : (s.setDec k d).dec = s.dec.set k.toNat d := rfl
@[simp] theorem State.setDec_seq (s : State) (k : DecIdx) (d : Decoder) : (s.setDec k d).seq = s.seq := rfl
@[simp] theorem State.setDec_resp (s : State) (k : DecIdx) (d : Decoder) : (s.setDec k d).resp = s.resp := rfl
@[simp] theorem State.setDec_evt (s : State) (k : DecIdx) (d : Decoder) : (s.setDec k d).evt = s.evt := rfl
@[simp] theorem State.setDec_assertFail (s : State) (k : DecIdx) (d : Decoder) : (s.setDec k d).assertFail = s.assertFail := rfl
@[simp] theorem State.setDec_prevAt (s : State) (k : DecIdx) (d : Decoder) (x : Bank) : (s.setDec k d).prevAt x = s.prevAt x := rfl
@[simp] theorem State.setDec_maskAt (s : State) (k : DecIdx) (d : Decoder) (x : Bank) : (s.setDec k d).maskAt x = s.maskAt x := rfl
@[simp] theorem State.setDec_trigEnAt (s : State) (k : DecIdx) (d : Decoder) (x : Bank) : (s.setDec k d).trigEnAt x = s.trigEnAt x := rfl
@[simp] theorem State.setDec_lvalidAt (s : State) (k : DecIdx) (d : Decoder) (x : Pin) : (s.setDec k d).lvalidAt x = s.lvalidAt x := rfl
@[simp] theorem State.setDec_listenerAt (s : State) (k : DecIdx) (d : Decoder) (x : Pin) : (s.setDec k d).listenerAt x = s.listenerAt x := rfl
@[simp] theorem State.setDec_pullupAt (s : State) (k : DecIdx) (d : Decoder) (x : Pin) : (s.setDec k d).pullupAt x = s.pullupAt x := rfl
@[simp] theorem State.setDec_samplePins (s : State) (k : DecIdx) (d : Decoder) (x : Bank) : (s.setDec k d).samplePins x = s.samplePins x := rfl
@[simp] theorem State.setDec_now (s : State) (k : DecIdx) (d : Decoder) : (s.setDec k d).now = s.now := rfl

/-! ## setSeq -/

@[simp] theorem State.setSeq_cfg (s : State) (q : Seq) : (s.setSeq q).cfg = s.cfg := rfl
@[simp] theorem State.setSeq_pinIn (s : State) (q : Seq) : (s.setSeq q).pinIn = s.pinIn := rfl
@[simp] theorem State.setSeq_time (s : State) (q : Seq) : (s.setSeq q).time = s.time := rfl
@[simp] theorem State.setSeq_script (s : State) (q : Seq) : (s.setSeq q).script = s.script := rfl
@[simp] theorem State.setSeq_prev (s : State) (q : Seq) : (s.setSeq q).prev = s.prev := rfl
@[simp] theorem State.setSeq_mask (s : State) (q : Seq) : (s.setSeq q).mask = s.mask := rfl
@[simp] theorem State.setSeq_trigEn (s : State) (q : Seq) : (s.setSeq q).trigEn = s.trigEn := rfl
@[simp] theorem State.setSeq_lvalid (s : State) (q : Seq) : (s.setSeq q).lvalid = s.lvalid := rfl
@[simp] theorem State.setSeq_listener (s : State) (q : Seq) : (s.setSeq q).listener = s.listener := rfl
@[simp] theorem State.setSeq_pullup (s : State) (q : Seq) : (s.setSeq q).pullup = s.pullup := rfl
@[simp] theorem State.setSeq_dec (s : State) (q : Seq) : (s.setSeq q).dec = s.dec := rfl
@[simp] theorem State.setSeq_seq (s : State) (q : Seq) : (s.setSeq q).seq = q := rfl
@[simp] theorem State.setSeq_resp (s : State) (q : Seq) : (s.setSeq q).resp = s.resp := rfl
@[simp] theorem State.setSeq_evt (s : State) (q : Seq) : (s.setSeq q).evt = s.evt := rfl
@[simp] theorem State.setSeq_assertFail (s : State) (q : Seq) : (s.setSeq q).assertFail = s.assertFail := rfl
@[simp] theorem State.setSeq_prevAt (s : State) (q : Seq) (x : Bank) : (s.setSeq q).prevAt x = s.prevAt x := rfl
@[simp] theorem State.setSeq_maskAt (s : State) (q : Seq) (x : Bank) : (s.setSeq q).maskAt x = s.maskAt x := rfl
@[simp] theorem State.setSeq_trigEnAt (s : State) (q : Seq) (x : Bank) : (s.setSeq q).trigEnAt x = s.trigEnAt x := rfl
@[simp] theorem State.setSeq_lvalidAt (s : State) (q : Seq) (x : Pin) : (s.setSeq q).lvalidAt x = s.lvalidAt x := rfl
@[simp] theorem State.setSeq_listenerAt (s : State) (q : Seq) (x : Pin) : (s.setSeq q).listenerAt x = s.listenerAt x := rfl
@[simp] theorem State.setSeq_pullupAt (s : State) (q : Seq) (x : Pin) : (s.setSeq q).pullupAt x = s.pullupAt x := rfl
@[simp] theorem State.setSeq_decAt (s : State) (q : Seq) (x : DecIdx) : (s.setSeq q).decAt x = s.decAt x := rfl
@[simp] theorem State.setSeq_samplePins (s : State) (q : Seq) (x : Bank) : (s.setSeq q).samplePins x = s.samplePins x := rfl
@[simp] theorem State.setSeq_now (s : State) (q : Seq) : (s.setSeq q).now = s.now := rfl

/-! ## pushResp -/

@[simp] theorem State.pushResp_cfg (s : State) (w : Word) : (s.pushResp w).cfg = s.cfg := rfl
@[simp] theorem State.pushResp_pinIn (s : State) (w : Word) : (s.pushResp w).pinIn = s.pinIn := rfl
@[simp] theorem State.pushResp_time (s : State) (w : Word) : (s.pushResp w).time = s.time := rfl
@[simp] theorem State.pushResp_script (s : State) (w : Word) : (s.pushResp w).script = s.script := rfl
@[simp] theorem State.pushResp_prev (s : State) (w : Word) : (s.pushResp w).prev = s.prev := rfl
@[simp] theorem State.pushResp_mask (s : State) (w : Word) : (s.pushResp w).mask = s.mask := rfl
@[simp] theorem State.pushResp_trigEn (s : State) (w : Word) : (s.pushResp w).trigEn = s.trigEn := rfl
@[simp] theorem State.pushResp_lvalid (s : State) (w : Word) : (s.pushResp w).lvalid = s.lvalid := rfl
@[simp] theorem State.pushResp_listener (s : State) (w : Word) : (s.pushResp w).listener = s.listener := rfl
@[simp] theorem State.pushResp_pullup (s : State) (w : Word) : (s.pushResp w).pullup = s.pullup := rfl
@[simp] theorem State.pushResp_dec (s : State) (w : Word) : (s.pushResp w).dec = s.dec := rfl
@[simp] theorem State.pushResp_seq (s : State) (w : Word) : (s.pushResp w).seq = s.seq := rfl
@[simp] theorem State.pushResp_resp (s : State) (w : Word) : (s.pushResp w).resp = s.resp ++ [w] := rfl
@[simp] theorem State.pushResp_evt (s : State) (w : Word) : (s.pushResp w).evt = s.evt := rfl
@[simp] theorem State.pushResp_assertFail (s : State) (w : Word) : (s.pushResp w).assertFail = s.assertFail := rfl
@[simp] theorem State.pushResp_prevAt (s : State) (w : Word) (x : Bank) : (s.pushResp w).prevAt x = s.prevAt x := rfl
@[simp] theorem State.pushResp_maskAt (s : State) (w : Word) (x : Bank) : (s.pushResp w).maskAt x = s.maskAt x := rfl
@[simp] theorem State.pushResp_trigEnAt (s : State) (w : Word) (x : Bank) : (s.pushResp w).trigEnAt x = s.trigEnAt x := rfl
@[simp] theorem State.pushResp_lvalidAt (s : State) (w : Word) (x : Pin) : (s.pushResp w).lvalidAt x = s.lvalidAt x := rfl
@[simp] theorem State.pushResp_listenerAt (s : State) (w : Word) (x : Pin) : (s.pushResp w).listenerAt x = s.listenerAt x := rfl
@[simp] theorem State.pushResp_pullupAt (s : State) (w : Word) (x : Pin) : (s.pushResp w).pullupAt x = s.pullupAt x := rfl
@[simp] theorem State.pushResp_decAt (s : State) (w : Word) (x : DecIdx) : (s.pushResp w).decAt x = s.decAt x := rfl
@[simp] theorem State.pushResp_samplePins (s : State) (w : Word) (x : Bank) : (s.pushResp w).samplePins x = s.samplePins x := rfl
@[simp] theorem State.pushResp_now (s : State) (w : Word) : (s.pushResp w).now = s.now := rfl

/-! ## emit -/

@[simp] theorem State.emit_cfg (s : State) (e : Event) : (s.emit e).cfg = s.cfg := rfl
@[simp] theorem State.emit_pinIn (s : State) (e : Event) : (s.emit e).pinIn = s.pinIn := rfl
@[simp] theorem State.emit_time (s : State) (e : Event) : (s.emit e).time = s.time := rfl
@[simp] theorem State.emit_script (s : State) (e : Event) : (s.emit e).script = s.script := rfl
@[simp] theorem State.emit_prev (s : State) (e : Event) : (s.emit e).prev = s.prev := rfl
@[simp] theorem State.emit_mask (s : State) (e : Event) : (s.emit e).mask = s.mask := rfl
@[simp] theorem State.emit_trigEn (s : State) (e : Event) : (s.emit e).trigEn = s.trigEn := rfl
@[simp] theorem State.emit_lvalid (s : State) (e : Event) : (s.emit e).lvalid = s.lvalid := rfl
@[simp] theorem State.emit_listener (s : State) (e : Event) : (s.emit e).listener = s.listener := rfl
@[simp] theorem State.emit_pullup (s : State) (e : Event) : (s.emit e).pullup = s.pullup := rfl
@[simp] theorem State.emit_dec (s : State) (e : Event) : (s.emit e).dec = s.dec := rfl
@[simp] theorem State.emit_seq (s : State) (e : Event) : (s.emit e).seq = s.seq := rfl
@[simp] theorem State.emit_resp (s : State) (e : Event) : (s.emit e).resp = s.resp := rfl
@[simp] theorem State.emit_evt (s : State) (e : Event) : (s.emit e).evt = s.evt ++ [e] := rfl
@[simp] theorem State.emit_assertFail (s : State) (e : Event) : (s.emit e).assertFail = s.assertFail := rfl
@[simp] theorem State.emit_prevAt (s : State) (e : Event) (x : Bank) : (s.emit e).prevAt x = s.prevAt x := rfl
@[simp] theorem State.emit_maskAt (s : State) (e : Event) (x : Bank) : (s.emit e).maskAt x = s.maskAt x := rfl
@[simp] theorem State.emit_trigEnAt (s : State) (e : Event) (x : Bank) : (s.emit e).trigEnAt x = s.trigEnAt x := rfl
@[simp] theorem State.emit_lvalidAt (s : State) (e : Event) (x : Pin) : (s.emit e).lvalidAt x = s.lvalidAt x := rfl
@[simp] theorem State.emit_listenerAt (s : State) (e : Event) (x : Pin) : (s.emit e).listenerAt x = s.listenerAt x := rfl
@[simp] theorem State.emit_pullupAt (s : State) (e : Event) (x : Pin) : (s.emit e).pullupAt x = s.pullupAt x := rfl
@[simp] theorem State.emit_decAt (s : State) (e : Event) (x : DecIdx) : (s.emit e).decAt x = s.decAt x := rfl
@[simp] theorem State.emit_samplePins (s : State) (e : Event) (x : Bank) : (s.emit e).samplePins x = s.samplePins x := rfl
@[simp] theorem State.emit_now (s : State) (e : Event) : (s.emit e).now = s.now := rfl

/-! ## raiseAssert -/

@[simp] theorem State.raiseAssert_cfg (s : State) : (s.raiseAssert).cfg = s.cfg := rfl
@[simp] theorem State.raiseAssert_pinIn (s : State) : (s.raiseAssert).pinIn = s.pinIn := rfl
@[simp] theorem State.raiseAssert_time (s : State) : (s.raiseAssert).time = s.time := rfl
@[simp] theorem State.raiseAssert_script (s : State) : (s.raiseAssert).script = s.script := rfl
@[simp] theorem State.raiseAssert_prev (s : State) : (s.raiseAssert).prev = s.prev := rfl
@[simp] theorem State.raiseAssert_mask (s : State) : (s.raiseAssert).mask = s.mask := rfl
@[simp] theorem State.raiseAssert_trigEn (s : State) : (s.raiseAssert).trigEn = s.trigEn := rfl
@[simp] theorem State.raiseAssert_lvalid (s : State) : (s.raiseAssert).lvalid = s.lvalid := rfl
@[simp] theorem State.raiseAssert_listener (s : State) : (s.raiseAssert).listener = s.listener := rfl
@[simp] theorem State.raiseAssert_pullup (s : State) : (s.raiseAssert).pullup = s.pullup := rfl
@[simp] theorem State.raiseAssert_dec (s : State) : (s.raiseAssert).dec = s.dec := rfl
@[simp] theorem State.raiseAssert_seq (s : State) : (s.raiseAssert).seq = s.seq := rfl
@[simp] theorem State.raiseAssert_resp (s : State) : (s.raiseAssert).resp = s.resp := rfl
@[simp] theorem State.raiseAssert_evt (s : State) : (s.raiseAssert).evt = s.evt := rfl
@[simp] theorem State.raiseAssert_assertFail (s : State) : (s.raiseAssert).assertFail = true := rfl
@[simp] theorem State.raiseAssert_prevAt (s : State) (x : Bank) : (s.raiseAssert).prevAt x = s.prevAt x := rfl
@[simp] theorem State.raiseAssert_maskAt (s : State) (x : Bank) : (s.raiseAssert).maskAt x = s.maskAt x := rfl
@[simp] theorem State.raiseAssert_trigEnAt (s : State) (x : Bank) : (s.raiseAssert).trigEnAt x = s.trigEnAt x := rfl
@[simp] theorem State.raiseAssert_lvalidAt (s : State) (x : Pin) : (s.raiseAssert).lvalidAt x = s.lvalidAt x := rfl
@[simp] theorem State.raiseAssert_listenerAt (s : State) (x : Pin) : (s.raiseAssert).listenerAt x = s.listenerAt x := rfl
@[simp] theorem State.raiseAssert_pullupAt (s : State) (x : Pin) : (s.raiseAssert).pullupAt x = s.pullupAt x := rfl
@[simp] theorem State.raiseAssert_decAt (s : State) (x : DecIdx) : (s.raiseAssert).decAt x = s.decAt x := rfl
@[simp] theorem State.raiseAssert_samplePins (s : State) (x : Bank) : (s.raiseAssert).samplePins x = s.samplePins x := rfl
@[simp] theorem State.raiseAssert_now (s : State) : (s.raiseAssert).now = s.now := rfl

end Sys2Proof.Machine
end

