-- ==== Sys2Proof/Laws/Ops.lean ====
section
/-! SUPPORT. The shared operations of Machine/Ops.lean: what each leaves unchanged, and, once each, everything the
registry bodies do. -/

namespace Sys2Proof.Machine

/-! ## deactivate: what it leaves unchanged -/

@[simp] theorem State.deactivate_cfg (s : State) (b : Bank) (i : Nat) : (s.deactivate b i).cfg = s.cfg := by
  unfold State.deactivate; simp only []; split <;> rfl

@[simp] theorem State.deactivate_pinIn (s : State) (b : Bank) (i : Nat) : (s.deactivate b i).pinIn = s.pinIn := by
  unfold State.deactivate; simp only []; split <;> rfl

@[simp] theorem State.deactivate_time (s : State) (b : Bank) (i : Nat) : (s.deactivate b i).time = s.time := by
  unfold State.deactivate; simp only []; split <;> rfl

@[simp] theorem State.deactivate_script (s : State) (b : Bank) (i : Nat) : (s.deactivate b i).script = s.script := by
  unfold State.deactivate; simp only []; split <;> rfl

@[simp] theorem State.deactivate_prev (s : State) (b : Bank) (i : Nat) : (s.deactivate b i).prev = s.prev := by
  unfold State.deactivate; simp only []; split <;> rfl

@[simp] theorem State.deactivate_pullup (s : State) (b : Bank) (i : Nat) : (s.deactivate b i).pullup = s.pullup := by
  unfold State.deactivate; simp only []; split <;> rfl

@[simp] theorem State.deactivate_dec (s : State) (b : Bank) (i : Nat) : (s.deactivate b i).dec = s.dec := by
  unfold State.deactivate; simp only []; split <;> rfl

@[simp] theorem State.deactivate_seq (s : State) (b : Bank) (i : Nat) : (s.deactivate b i).seq = s.seq := by
  unfold State.deactivate; simp only []; split <;> rfl

@[simp] theorem State.deactivate_resp (s : State) (b : Bank) (i : Nat) : (s.deactivate b i).resp = s.resp := by
  unfold State.deactivate; simp only []; split <;> rfl

@[simp] theorem State.deactivate_evt (s : State) (b : Bank) (i : Nat) : (s.deactivate b i).evt = s.evt := by
  unfold State.deactivate; simp only []; split <;> rfl

@[simp] theorem State.deactivate_assertFail (s : State) (b : Bank) (i : Nat) : (s.deactivate b i).assertFail = s.assertFail := by
  unfold State.deactivate; simp only []; split <;> rfl

@[simp] theorem State.deactivate_lvalid (s : State) (b : Bank) (i : Nat) : (s.deactivate b i).lvalid = s.lvalid := by
  unfold State.deactivate; simp only []; split <;> rfl

@[simp] theorem State.deactivate_listener (s : State) (b : Bank) (i : Nat) : (s.deactivate b i).listener = s.listener := by
  unfold State.deactivate; simp only []; split <;> rfl

/-! ## implicitDetach: what it leaves unchanged -/

@[simp] theorem State.implicitDetach_cfg (s : State) (p : Pin) : (s.implicitDetach p).cfg = s.cfg := by
  unfold State.implicitDetach; split <;> simp

@[simp] theorem State.implicitDetach_pinIn (s : State) (p : Pin) : (s.implicitDetach p).pinIn = s.pinIn := by
  unfold State.implicitDetach; split <;> simp

@[simp] theorem State.implicitDetach_time (s : State) (p : Pin) : (s.implicitDetach p).time = s.time := by
  unfold State.implicitDetach; split <;> simp

@[simp] theorem State.implicitDetach_script (s : State) (p : Pin) : (s.implicitDetach p).script = s.script := by
  unfold State.implicitDetach; split <;> simp

@[simp] theorem State.implicitDetach_prev (s : State) (p : Pin) : (s.implicitDetach p).prev = s.prev := by
  unfold State.implicitDetach; split <;> simp

@[simp] theorem State.implicitDetach_pullup (s : State) (p : Pin) : (s.implicitDetach p).pullup = s.pullup := by
  unfold State.implicitDetach; split <;> simp

@[simp] theorem State.implicitDetach_dec (s : State) (p : Pin) : (s.implicitDetach p).dec = s.dec := by
  unfold State.implicitDetach; split <;> simp

@[simp] theorem State.implicitDetach_seq (s : State) (p : Pin) : (s.implicitDetach p).seq = s.seq := by
  unfold State.implicitDetach; split <;> simp

@[simp] theorem State.implicitDetach_resp (s : State) (p : Pin) : (s.implicitDetach p).resp = s.resp := by
  unfold State.implicitDetach; split <;> simp

@[simp] theorem State.implicitDetach_evt (s : State) (p : Pin) : (s.implicitDetach p).evt = s.evt := by
  unfold State.implicitDetach; split <;> simp

@[simp] theorem State.implicitDetach_assertFail (s : State) (p : Pin) : (s.implicitDetach p).assertFail = s.assertFail := by
  unfold State.implicitDetach; split <;> simp

@[simp] theorem State.implicitDetach_listener (s : State) (p : Pin) : (s.implicitDetach p).listener = s.listener := by
  unfold State.implicitDetach; split <;> simp

/-! ## register: what it leaves unchanged -/

@[simp] theorem State.register_cfg (s : State) (p : Pin) (h : Handle) : (s.register p h).cfg = s.cfg := by
  unfold State.register; simp only []; split <;> rfl

@[simp] theorem State.register_pinIn (s : State) (p : Pin) (h : Handle) : (s.register p h).pinIn = s.pinIn := by
  unfold State.register; simp only []; split <;> rfl

@[simp] theorem State.register_time (s : State) (p : Pin) (h : Handle) : (s.register p h).time = s.time := by
  unfold State.register; simp only []; split <;> rfl

@[simp] theorem State.register_script (s : State) (p : Pin) (h : Handle) : (s.register p h).script = s.script := by
  unfold State.register; simp only []; split <;> rfl

@[simp] theorem State.register_prev (s : State) (p : Pin) (h : Handle) : (s.register p h).prev = s.prev := by
  unfold State.register; simp only []; split <;> rfl

@[simp] theorem State.register_pullup (s : State) (p : Pin) (h : Handle) : (s.register p h).pullup = s.pullup := by
  unfold State.register; simp only []; split <;> rfl

@[simp] theorem State.register_dec (s : State) (p : Pin) (h : Handle) : (s.register p h).dec = s.dec := by
  unfold State.register; simp only []; split <;> rfl

@[simp] theorem State.register_seq (s : State) (p : Pin) (h : Handle) : (s.register p h).seq = s.seq := by
  unfold State.register; simp only []; split <;> rfl

@[simp] theorem State.register_resp (s : State) (p : Pin) (h : Handle) : (s.register p h).resp = s.resp := by
  unfold State.register; simp only []; split <;> rfl

@[simp] theorem State.register_evt (s : State) (p : Pin) (h : Handle) : (s.register p h).evt = s.evt := by
  unfold State.register; simp only []; split <;> rfl

@[simp] theorem State.register_assertFail (s : State) (p : Pin) (h : Handle) : (s.register p h).assertFail = s.assertFail := by
  unfold State.register; simp only []; split <;> rfl

/-! ## attachBody: what it leaves unchanged -/

@[simp] theorem State.attachBody_cfg (s : State) (p : Pin) (h : Handle) : (s.attachBody p h).cfg = s.cfg := by
  unfold State.attachBody; split <;> simp

@[simp] theorem State.attachBody_pinIn (s : State) (p : Pin) (h : Handle) : (s.attachBody p h).pinIn = s.pinIn := by
  unfold State.attachBody; split <;> simp

@[simp] theorem State.attachBody_time (s : State) (p : Pin) (h : Handle) : (s.attachBody p h).time = s.time := by
  unfold State.attachBody; split <;> simp

@[simp] theorem State.attachBody_script (s : State) (p : Pin) (h : Handle) : (s.attachBody p h).script = s.script := by
  unfold State.attachBody; split <;> simp

@[simp] theorem State.attachBody_prev (s : State) (p : Pin) (h : Handle) : (s.attachBody p h).prev = s.prev := by
  unfold State.attachBody; split <;> simp

@[simp] theorem State.attachBody_pullup (s : State) (p : Pin) (h : Handle) : (s.attachBody p h).pullup = s.pullup := by
  unfold State.attachBody; split <;> simp

@[simp] theorem State.attachBody_dec (s : State) (p : Pin) (h : Handle) : (s.attachBody p h).dec = s.dec := by
  unfold State.attachBody; split <;> simp

@[simp] theorem State.attachBody_seq (s : State) (p : Pin) (h : Handle) : (s.attachBody p h).seq = s.seq := by
  unfold State.attachBody; split <;> simp

@[simp] theorem State.attachBody_resp (s : State) (p : Pin) (h : Handle) : (s.attachBody p h).resp = s.resp := by
  unfold State.attachBody; split <;> simp

@[simp] theorem State.attachBody_evt (s : State) (p : Pin) (h : Handle) : (s.attachBody p h).evt = s.evt := by
  unfold State.attachBody; split <;> simp

@[simp] theorem State.attachBody_assertFail (s : State) (p : Pin) (h : Handle) : (s.attachBody p h).assertFail = s.assertFail := by
  unfold State.attachBody; split <;> simp

/-! ## detachBody: what it leaves unchanged -/

@[simp] theorem State.detachBody_cfg (s : State) (p : Pin) : (s.detachBody p).cfg = s.cfg := by
  unfold State.detachBody; split <;> simp

@[simp] theorem State.detachBody_pinIn (s : State) (p : Pin) : (s.detachBody p).pinIn = s.pinIn := by
  unfold State.detachBody; split <;> simp

@[simp] theorem State.detachBody_time (s : State) (p : Pin) : (s.detachBody p).time = s.time := by
  unfold State.detachBody; split <;> simp

@[simp] theorem State.detachBody_script (s : State) (p : Pin) : (s.detachBody p).script = s.script := by
  unfold State.detachBody; split <;> simp

@[simp] theorem State.detachBody_prev (s : State) (p : Pin) : (s.detachBody p).prev = s.prev := by
  unfold State.detachBody; split <;> simp

@[simp] theorem State.detachBody_pullup (s : State) (p : Pin) : (s.detachBody p).pullup = s.pullup := by
  unfold State.detachBody; split <;> simp

@[simp] theorem State.detachBody_dec (s : State) (p : Pin) : (s.detachBody p).dec = s.dec := by
  unfold State.detachBody; split <;> simp

@[simp] theorem State.detachBody_seq (s : State) (p : Pin) : (s.detachBody p).seq = s.seq := by
  unfold State.detachBody; split <;> simp

@[simp] theorem State.detachBody_resp (s : State) (p : Pin) : (s.detachBody p).resp = s.resp := by
  unfold State.detachBody; split <;> simp

@[simp] theorem State.detachBody_evt (s : State) (p : Pin) : (s.detachBody p).evt = s.evt := by
  unfold State.detachBody; split <;> simp

@[simp] theorem State.detachBody_assertFail (s : State) (p : Pin) : (s.detachBody p).assertFail = s.assertFail := by
  unfold State.detachBody; split <;> simp

/-! ## respond, goto and the admission of commands and triggers -/

@[simp] theorem State.respond_eq (s : State) (st : Status) (data : BitVec 26) :
    s.respond st data = { s with resp := s.resp ++ [responseWord st data], seq := .idle } := rfl

@[simp] theorem State.goto_eq (s : State) (c : Command) (ph : Phase) :
    s.goto c ph = { s with seq := .busy { c with phase := ph } } := rfl

theorem State.onIdle_idle (s : State) (run : State → State) (h : s.seq = .idle) : s.onIdle run = run s := by
  simp [State.onIdle, h]

theorem State.onIdle_busy (s : State) (run : State → State) (c : Command) (h : s.seq = .busy c) : s.onIdle run = s := by
  simp [State.onIdle, h]

theorem State.onPort_idle (s : State) (cmd : Fetched) (first : State → State) (next : Command → State → State)
    (h : s.seq = .idle) : s.onPort cmd first next = first s := by
  simp [State.onPort, h]

theorem State.onPort_own (s : State) (cmd : Fetched) (first : State → State) (next : Command → State → State)
    (c : Command) (h : s.seq = .busy c) (hc : cmd = .command c.cmd) : s.onPort cmd first next = next c s := by
  simp [State.onPort, h, hc]

theorem State.onPort_held (s : State) (cmd : Fetched) (first : State → State) (next : Command → State → State)
    (c : Command) (h : s.seq = .busy c) (hc : cmd ≠ .command c.cmd) : s.onPort cmd first next = s := by
  simp [State.onPort, h, hc]

/-! ## The registry bodies, whole -/

/-- Writing the trigger enable on a condition is writing it always, with its old value where the condition fails. -/
theorem State.setTrigEn_ite (s : State) (b : Bank) (c : Prop) [Decidable c] (v : Bool) :
    (if c then s.setTrigEn b v else s) = s.setTrigEn b (if c then v else s.trigEnAt b) := by
  split
  · rfl
  · simp [State.setTrigEn, State.trigEnAt]

/-- Clearing a mask bit, whole (R171, R178). -/
theorem State.deactivate_eq (s : State) (b : Bank) (i : Nat) :
    s.deactivate b i =
      (s.setMask b (clearBit (s.maskAt b) i)).setTrigEn b
        (if clearBit (s.maskAt b) i = 0 then false else s.trigEnAt b) := by
  simp only [State.deactivate, State.setTrigEn_ite, State.setMask_maskAt, State.setMask_trigEnAt, if_true]

/-- Recording a registration, whole (R171). -/
theorem State.register_eq (s : State) (p : Pin) (h : Handle) :
    s.register p h =
      (((s.setListener p h).setLvalid p true).setMask (bankOf s.cfg p)
        (setBit (s.maskAt (bankOf s.cfg p)) (bitOf s.cfg p))).setTrigEn (bankOf s.cfg p)
        (if s.maskAt (bankOf s.cfg p) = 0 then true else s.trigEnAt (bankOf s.cfg p)) := by
  simp only [State.register, State.setTrigEn_ite, beq_iff_eq, State.setMask_trigEnAt, State.setLvalid_trigEnAt,
    State.setListener_trigEnAt]

/-- REG_DETACH_BODY of a valid pin: its entry and its mask bit are cleared, and the trigger is disabled if the mask is
now empty (R178). -/
theorem State.detachBody_valid (s : State) (p : Pin) (hp : validPin s.cfg p = true) :
    s.detachBody p =
      { s with
        lvalid := s.lvalid.set p.toNat false
        listener := s.listener.set p.toNat 0
        mask := s.mask.set (bankOf s.cfg p) (clearBit (s.maskAt (bankOf s.cfg p)) (bitOf s.cfg p))
        trigEn := s.trigEn.set (bankOf s.cfg p)
          (if clearBit (s.maskAt (bankOf s.cfg p)) (bitOf s.cfg p) = 0 then false
            else s.trigEnAt (bankOf s.cfg p)) } := by
  simp only [State.detachBody, hp, if_true, State.deactivate_eq]
  rfl

/-- REG_DETACH_BODY of an index that is not valid does nothing (R178). -/
theorem State.detachBody_invalid (s : State) (p : Pin) (hp : validPin s.cfg p = false) : s.detachBody p = s := by
  simp [State.detachBody, hp]

/-- REG_ATTACH_BODY that is rejected does nothing (R171). -/
theorem State.attachBody_rejected (s : State) (p : Pin) (h : Handle) (hok : s.attachOk p h = false) :
    s.attachBody p h = s := by
  simp [State.attachBody, hok]

/-- REG_ATTACH_BODY that is accepted (R171): the entry and the mask bit are written; the trigger is enabled if the bank
has no other active pin, and otherwise keeps its value. -/
theorem State.attachBody_accepted (s : State) (p : Pin) (h : Handle) (hok : s.attachOk p h = true) :
    s.attachBody p h =
      { s with
        listener := s.listener.set p.toNat h
        lvalid := s.lvalid.set p.toNat true
        mask := s.mask.set (bankOf s.cfg p) (setBit (s.maskAt (bankOf s.cfg p)) (bitOf s.cfg p))
        trigEn := s.trigEn.set (bankOf s.cfg p)
          (if (if s.lvalidAt p then clearBit (s.maskAt (bankOf s.cfg p)) (bitOf s.cfg p)
              else s.maskAt (bankOf s.cfg p)) = 0 then true
            else s.trigEnAt (bankOf s.cfg p)) } := by
  have hp : validPin s.cfg p = true := by
    simp only [State.attachOk, Bool.and_eq_true] at hok
    exact hok.1
  have hi := bitOf_lt_eight s.cfg p hp
  simp only [State.attachBody, hok, if_true, State.register_eq, State.implicitDetach_cfg]
  by_cases hv : s.lvalidAt p = true
  · simp only [State.implicitDetach, hv, if_true, State.deactivate_eq, State.setTrigEn_maskAt, State.setMask_maskAt,
      State.setLvalid_maskAt, setBit_clearBit _ _ hi, State.setTrigEn_trigEnAt, State.setLvalid_trigEnAt]
    by_cases hz : clearBit (s.maskAt (bankOf s.cfg p)) (bitOf s.cfg p) = 0
    · simp [hz, State.setMask, State.setListener, State.setLvalid, State.setTrigEn]
    · have hz' : ¬clearBit (s.maskAt (bankOf s.cfg p)) (bitOf s.cfg p) = 0#8 := hz
      simp [hz', State.setMask, State.setListener, State.setLvalid, State.setTrigEn]
  · simp [State.implicitDetach, hv, State.setMask, State.setListener, State.setLvalid, State.setTrigEn]

/-- The trigger enable after REG_ATTACH_BODY is 1, where it agreed with the bank's mask before (R172). -/
theorem trigEn_after_attach (en : Bool) (m : Byte) (i : Nat) (valid : Bool) (hen : en = decide (m ≠ 0)) :
    (if (if valid then clearBit m i else m) = 0 then true else en) = true := by
  subst hen
  by_cases h0 : m = 0
  · subst h0
    cases valid <;> simp [clearBit]
  · rw [decide_eq_true h0, ite_self]

end Sys2Proof.Machine
end

