-- ==== Sys2Proof/Laws/Wiegand.lean ====
section
/-! SUPPORT. The Wiegand decoder's registers under HANDLE, SHIFT_IN and the reset actions, and what the steps of
DEC.ATTACH and DEC.DETACH leave unchanged. -/

namespace Sys2Proof.Machine

/-! ## The reset actions -/

@[simp] theorem Decoder.resetProgress_eq (d : Decoder) : d.resetProgress = { d with bitcnt := 0, acc := 0 } := rfl

@[simp] theorem Decoder.resetCompleted_eq (d : Decoder) : d.resetCompleted = { d with cred := 0 } := rfl

/-! ## SHIFT_IN, whole -/

/-- The bit count that SHIFT_IN continues from: 0 after a timeout discard (R198). -/
def Decoder.countKept (d : Decoder) (tRd now : Time) : BitVec 5 := if exceeds now d.tlast tRd then 0 else d.bitcnt

/-- The accumulator that SHIFT_IN continues from: 0 after a timeout discard (R198). -/
def Decoder.accKept (d : Decoder) (tRd now : Time) : Word := if exceeds now d.tlast tRd then 0 else d.acc

/-- The accumulator with the new bit in it (R198). -/
def Decoder.accWith (d : Decoder) (tRd now : Time) (bit : Bool) : Word :=
  (d.accKept tRd now <<< 1) ||| (BitVec.ofBool bit).setWidth 32

/-- The timeout discard, whole (R198, R199). -/
theorem Decoder.dropStalled_eq (d : Decoder) (tRd now : Time) :
    d.dropStalled tRd now = { d with bitcnt := d.countKept tRd now, acc := d.accKept tRd now } := by
  unfold Decoder.dropStalled Decoder.countKept Decoder.accKept
  cases exceeds now d.tlast tRd <;> rfl

/-- SHIFT_IN before its completion check (R198). -/
theorem Decoder.accumulate_dropStalled (d : Decoder) (tRd now : Time) (bit : Bool) :
    (d.dropStalled tRd now).accumulate now bit =
      { d with bitcnt := d.countKept tRd now + 1, acc := d.accWith tRd now bit, tlast := now } := by
  rw [Decoder.dropStalled_eq]
  rfl

/-- SHIFT_IN below the 26th bit (R198). -/
theorem Decoder.shiftIn_incomplete (d : Decoder) (tRd tSt now : Time) (bit : Bool)
    (h : d.countKept tRd now + 1 ≠ 26) :
    d.shiftIn tRd tSt now bit =
      { d with bitcnt := d.countKept tRd now + 1, acc := d.accWith tRd now bit, tlast := now } := by
  rw [Decoder.shiftIn, Decoder.accumulate_dropStalled, Decoder.complete, if_neg h]

/-- SHIFT_IN at the 26th bit, the last promoted credential old enough: promoted (R198). -/
theorem Decoder.shiftIn_promotes (d : Decoder) (tRd tSt now : Time) (bit : Bool)
    (h : d.countKept tRd now + 1 = 26) (hage : exceeds now d.tcred tSt = true) :
    d.shiftIn tRd tSt now bit =
      { d with bitcnt := 0, acc := 0, tlast := now, cred := d.accWith tRd now bit, tcred := now } := by
  rw [Decoder.shiftIn, Decoder.accumulate_dropStalled, Decoder.complete, if_pos h, if_pos hage]
  rfl

/-- SHIFT_IN at the 26th bit, the last promoted credential too recent: dropped (R198, R201). -/
theorem Decoder.shiftIn_drops (d : Decoder) (tRd tSt now : Time) (bit : Bool)
    (h : d.countKept tRd now + 1 = 26) (hage : exceeds now d.tcred tSt = false) :
    d.shiftIn tRd tSt now bit = { d with bitcnt := 0, acc := 0, tlast := now } := by
  rw [Decoder.shiftIn, Decoder.accumulate_dropStalled, Decoder.complete, if_pos h, if_neg (by simp [hage])]
  rfl

/-! ## HANDLE -/

/-- HANDLE shifts in one bit, or changes nothing (R191, R192). -/
theorem Decoder.handle_cases (d : Decoder) (tRd tSt now : Time) (p : Pin) (level : Bool) :
    d.handle tRd tSt now p level = d ∨
      (d.attached = true ∧ level = false ∧
        ((p = d.p0 ∧ d.handle tRd tSt now p level = d.shiftIn tRd tSt now false) ∨
          (p ≠ d.p0 ∧ p = d.p1 ∧ d.handle tRd tSt now p level = d.shiftIn tRd tSt now true))) := by
  unfold Decoder.handle
  cases ha : d.attached
  · exact .inl (by simp)
  · cases level
    · by_cases h0 : p = d.p0
      · exact .inr ⟨rfl, rfl, .inl ⟨h0, by simp [h0]⟩⟩
      · by_cases h1 : p = d.p1
        · exact .inr ⟨rfl, rfl, .inr ⟨h0, h1, by simp [h0, ← h1]⟩⟩
        · exact .inl (by simp [h0, h1])
    · exact .inl (by simp)

/-- HANDLE on an unbound decoder does nothing (R191). -/
theorem Decoder.handle_unattached (d : Decoder) (tRd tSt now : Time) (p : Pin) (level : Bool)
    (h : d.attached = false) : d.handle tRd tSt now p level = d := by
  simp [Decoder.handle, h]

/-- HANDLE on a rising edge does nothing (R191). -/
theorem Decoder.handle_rising (d : Decoder) (tRd tSt now : Time) (p : Pin) : d.handle tRd tSt now p true = d := by
  simp [Decoder.handle]

/-- HANDLE of a pin that is neither of the decoder's does nothing (R191, R194 (c)). -/
theorem Decoder.handle_unassigned (d : Decoder) (tRd tSt now : Time) (p : Pin) (level : Bool)
    (h0 : p ≠ d.p0) (h1 : p ≠ d.p1) : d.handle tRd tSt now p level = d := by
  simp [Decoder.handle, h0, h1]

/-- What SHIFT_IN can do to the completed state: nothing, or a promotion, which the age of the last one allows and which
moves TCRED to the present time (R198, R201). -/
theorem Decoder.shiftIn_completed_cases (d : Decoder) (tRd tSt now : Time) (bit : Bool) :
    ((d.shiftIn tRd tSt now bit).cred = d.cred ∧ (d.shiftIn tRd tSt now bit).tcred = d.tcred) ∨
      (exceeds now d.tcred tSt = true ∧ (d.shiftIn tRd tSt now bit).tcred = now) := by
  by_cases h26 : d.countKept tRd now + 1 = 26
  · cases hx : exceeds now d.tcred tSt
    · exact .inl (by rw [Decoder.shiftIn_drops d tRd tSt now bit h26 hx]; exact ⟨rfl, rfl⟩)
    · exact .inr (by rw [Decoder.shiftIn_promotes d tRd tSt now bit h26 hx]; exact ⟨rfl, rfl⟩)
  · exact .inl (by rw [Decoder.shiftIn_incomplete d tRd tSt now bit h26]; exact ⟨rfl, rfl⟩)

/-- A promotion moves TCRED: a time whose difference to another exceeds a limit is not that other time. -/
theorem ne_of_exceeds {now since limit : Time} (h : exceeds now since limit = true) : now ≠ since := by
  rintro rfl
  simp [exceeds, elapsed] at h

end Sys2Proof.Machine
end

