-- ==== Sys2Proof/Laws/Multiplexer.lean ====
section
/-! SUPPORT. DISPATCH and TRIG: what one dispatch does, and what interrupt context leaves unchanged
(40_edge_multiplexer.md R142, R150). -/

namespace Sys2Proof.Machine

/-! ## DISPATCH, whole -/

theorem State.dispatch_unbound (s : State) (p : Pin) (level : Bool) (h : s.lvalidAt p = false) :
    s.dispatch p level = s.raiseAssert := by
  simp [State.dispatch, h]

theorem State.dispatch_external (s : State) (p : Pin) (level : Bool) (h : s.lvalidAt p = true)
    (he : handleIsExternal (s.listenerAt p) = true) :
    s.dispatch p level = s.emit (.ext (handleIndex (s.listenerAt p)) p level) := by
  simp [State.dispatch, h, he]

theorem State.dispatch_decoder (s : State) (p : Pin) (level : Bool) (h : s.lvalidAt p = true)
    (he : handleIsExternal (s.listenerAt p) = false) :
    s.dispatch p level = s.handle (handleIndex (s.listenerAt p)) p level := by
  simp [State.dispatch, h, he]

/-- Whatever a dispatch does, it writes decoder registers, `EVT` and the debug flag alone (R142, R150). -/
theorem State.dispatch_frame (s : State) (p : Pin) (level : Bool) :
    ∃ d e a, s.dispatch p level = { s with dec := d, evt := e, assertFail := a } := by
  cases h : s.lvalidAt p
  · exact ⟨s.dec, s.evt, true, s.dispatch_unbound p level h⟩
  · cases he : handleIsExternal (s.listenerAt p)
    · exact ⟨_, s.evt, s.assertFail, s.dispatch_decoder p level h he⟩
    · exact ⟨s.dec, _, s.assertFail, s.dispatch_external p level h he⟩

/-! ## The loop of TRIG -/

@[simp] theorem State.dispatchBits_nil (s : State) (b : Bank) (cur changed : Byte) :
    s.dispatchBits b cur changed [] = s := rfl

theorem State.dispatchBits_cons (s : State) (b : Bank) (cur changed : Byte) (i : Nat) (rest : List Nat) :
    s.dispatchBits b cur changed (i :: rest) =
      (if changed.getLsbD i then s.dispatch (pinAt s.cfg b i) (cur.getLsbD i) else s).dispatchBits b cur changed rest :=
  rfl

/-- The loop writes decoder registers, `EVT` and the debug flag alone (R142). -/
theorem State.dispatchBits_frame (s : State) (b : Bank) (cur changed : Byte) (l : List Nat) :
    ∃ d e a, s.dispatchBits b cur changed l = { s with dec := d, evt := e, assertFail := a } := by
  induction l generalizing s with
  | nil => exact ⟨s.dec, s.evt, s.assertFail, rfl⟩
  | cons i rest ih =>
    rw [State.dispatchBits_cons]
    split
    · obtain ⟨d, e, a, h⟩ := s.dispatch_frame (pinAt s.cfg b i) (cur.getLsbD i)
      rw [h]
      obtain ⟨d', e', a', h'⟩ := ih { s with dec := d, evt := e, assertFail := a }
      exact ⟨d', e', a', h'⟩
    · exact ih s

/-- TRIG b writes `PREV[b]`, decoder registers, `EVT` and the debug flag alone (R142). -/
theorem State.trig_frame (b : Bank) (s : State) :
    ∃ d e a, s.trig b =
      { s with prev := s.prev.set b (s.samplePins b), dec := d, evt := e, assertFail := a } := by
  obtain ⟨d, e, a, h⟩ :=
    (s.setPrev b (s.samplePins b)).dispatchBits_frame b (s.samplePins b) (s.changedBits b (s.samplePins b))
      [0, 1, 2, 3, 4, 5, 6, 7]
  exact ⟨d, e, a, h⟩

end Sys2Proof.Machine
end

