-- ==== Sys2Proof/Laws/Invariants.lean ====
section
/-! SUPPORT. Each shared operation keeps the invariants of Safety.lean (10_state.md R60; 41_listener_registry.md R183). -/

namespace Sys2Proof.Machine

/-! ## The registry bodies -/

/-- The byte with bit i written to v. -/
def writeBit (m : Byte) (i : Nat) (v : Bool) : Byte := if v then setBit m i else clearBit m i

theorem getLsbD_writeBit (m : Byte) (i j : Nat) (v : Bool) (hi : i < 8) :
    (writeBit m i v).getLsbD j = if i = j then v else m.getLsbD j := by
  by_cases h : i = j
  · subst h
    cases v <;> simp [writeBit, getLsbD_clearBit m i i hi, getLsbD_setBit m i i hi]
  · cases v <;> simp [writeBit, getLsbD_clearBit m i j hi, getLsbD_setBit m i j hi, h]

/-- Entry p, its mask bit and its bank's trigger enable, written together. -/
def State.writeEntry (s : State) (p : Pin) (v : Bool) (h : Handle) : State :=
  (((s.setListener p h).setLvalid p v).setMask (bankOf s.cfg p)
    (writeBit (s.maskAt (bankOf s.cfg p)) (bitOf s.cfg p) v)).setTrigEn (bankOf s.cfg p)
    (decide (writeBit (s.maskAt (bankOf s.cfg p)) (bitOf s.cfg p) v ≠ 0))

theorem State.writeEntry_keeps_inv (s : State) (p : Pin) (v : Bool) (h : Handle) (hs : Inv s)
    (hp : validPin s.cfg p = true) (hv : v = true → validHandle s.cfg h = true) (h0 : v = false → h = 0) :
    Inv (s.writeEntry p v h) := by
  have hi := bitOf_lt_eight s.cfg p hp
  have hw := bitOf_lt_bankWidth s.cfg p hp
  constructor
  case mask_matches_table =>
    intro q hq
    simp only [State.writeEntry, State.setTrigEn_cfg, State.setMask_cfg, State.setLvalid_cfg, State.setListener_cfg,
      State.setTrigEn_lvalidAt, State.setMask_lvalidAt, State.setLvalid_lvalidAt, State.setListener_lvalidAt,
      State.setTrigEn_maskAt, State.setMask_maskAt, State.setLvalid_maskAt, State.setListener_maskAt] at hq ⊢
    have hold := hs.mask_matches_table q hq
    by_cases hb : bankOf s.cfg p = bankOf s.cfg q
    · rw [if_pos hb, getLsbD_writeBit _ _ _ _ hi, hold, hb]
      by_cases hbit : bitOf s.cfg p = bitOf s.cfg q
      · rw [if_pos (pin_eq_of_bank_bit_eq s.cfg p q hp hq hb hbit), if_pos hbit]
      · rw [if_neg (fun e => hbit (by rw [e])), if_neg hbit]
    · rw [if_neg hb, if_neg (fun e => hb (by rw [e])), hold]
  case enabled_iff_active =>
    intro b
    by_cases hb : bankOf s.cfg p = b
    · simp [State.writeEntry, hb]
    · simpa [State.writeEntry, hb] using hs.enabled_iff_active b
  case no_stray_mask_bit =>
    intro b i hbi
    simp only [State.writeEntry, State.setTrigEn_cfg, State.setMask_cfg, State.setLvalid_cfg, State.setListener_cfg,
      State.setTrigEn_maskAt, State.setMask_maskAt, State.setLvalid_maskAt, State.setListener_maskAt] at hbi ⊢
    have hold := hs.no_stray_mask_bit b i hbi
    by_cases hb : bankOf s.cfg p = b
    · rw [if_pos hb, getLsbD_writeBit _ _ _ _ hi, hb, if_neg (by rw [← hb] at hbi; omega), hold]
    · rw [if_neg hb, hold]
  case handles_valid =>
    intro q
    by_cases hq : p = q
    · simpa [State.writeEntry, hq] using hv
    · simpa [State.writeEntry, hq] using hs.handles_valid q
  case empty_entry_is_zero =>
    intro q
    by_cases hq : p = q
    · simpa [State.writeEntry, hq] using h0
    · simpa [State.writeEntry, hq] using hs.empty_entry_is_zero q
  case no_pin_beyond_n =>
    intro q hq
    have hne : p ≠ q := by
      rintro rfl
      simp [State.writeEntry, hp] at hq
    simpa [State.writeEntry, hne] using hs.no_pin_beyond_n q (by simpa [State.writeEntry] using hq)
  case count_below_width => exact hs.count_below_width
  case accumulator_fits => exact hs.accumulator_fits
  case credential_fits => exact hs.credential_fits
  case no_decoder_beyond_num_dec => exact hs.no_decoder_beyond_num_dec
  case sequencer_legal => exact hs.sequencer_legal
  case responses_legal => exact hs.responses_legal
  case no_assert_fail => exact hs.no_assert_fail

/-- In a state with the invariants, REG_ATTACH_BODY that is accepted writes entry, mask bit and enable together. -/
theorem State.attachBody_eq_writeEntry (s : State) (p : Pin) (h : Handle) (hs : Inv s) (hok : s.attachOk p h = true) :
    s.attachBody p h = s.writeEntry p true h := by
  have hp : validPin s.cfg p = true := by
    simp only [State.attachOk, Bool.and_eq_true] at hok
    exact hok.1
  rw [State.attachBody_accepted s p h hok,
    trigEn_after_attach _ _ _ _ (hs.enabled_iff_active (bankOf s.cfg p))]
  have hne : decide (setBit (s.maskAt (bankOf s.cfg p)) (bitOf s.cfg p) ≠ 0) = true :=
    decide_eq_true (setBit_ne_zero _ _ (bitOf_lt_eight s.cfg p hp))
  simp only [State.writeEntry, writeBit, if_true, hne]
  rfl

/-- In a state with the invariants, REG_DETACH_BODY of a valid pin writes entry, mask bit and enable together. -/
theorem State.detachBody_eq_writeEntry (s : State) (p : Pin) (hs : Inv s) (hp : validPin s.cfg p = true) :
    s.detachBody p = s.writeEntry p false 0 := by
  have hen : (if clearBit (s.maskAt (bankOf s.cfg p)) (bitOf s.cfg p) = 0 then false
      else s.trigEnAt (bankOf s.cfg p)) = decide (clearBit (s.maskAt (bankOf s.cfg p)) (bitOf s.cfg p) ≠ 0) := by
    split
    · rename_i hz
      rw [hz]
      rfl
    · rename_i hz
      rw [hs.enabled_iff_active, decide_eq_true hz]
      apply decide_eq_true
      intro h0
      apply hz
      rw [h0]
      simp [clearBit]
  rw [State.detachBody_valid s p hp, hen]
  simp only [State.writeEntry, writeBit]
  rfl

theorem State.attachBody_keeps_inv (s : State) (p : Pin) (h : Handle) (hs : Inv s) : Inv (s.attachBody p h) := by
  cases hok : s.attachOk p h
  · rw [State.attachBody_rejected s p h hok]
    exact hs
  · rw [State.attachBody_eq_writeEntry s p h hs hok]
    simp only [State.attachOk, Bool.and_eq_true] at hok
    exact s.writeEntry_keeps_inv p true h hs hok.1 (fun _ => hok.2) (by simp)

theorem State.detachBody_keeps_inv (s : State) (p : Pin) (hs : Inv s) : Inv (s.detachBody p) := by
  cases hp : validPin s.cfg p
  · rw [State.detachBody_invalid s p hp]
    exact hs
  · rw [State.detachBody_eq_writeEntry s p hs hp]
    exact s.writeEntry_keeps_inv p false 0 hs hp (by simp) (by simp)

/-! ## Decoder registers -/

/-- The bounds of INV5 to INV7 on one decoder's registers. -/
def Decoder.Fits (d : Decoder) : Prop :=
  d.bitcnt.toNat ≤ 25 ∧ d.acc.toNat < 2 ^ d.bitcnt.toNat ∧ d.cred.toNat < 2 ^ 26

theorem Inv.decoder_fits {s : State} (hs : Inv s) (k : DecIdx) : (s.decAt k).Fits :=
  ⟨hs.count_below_width k, hs.accumulator_fits k, hs.credential_fits k⟩

/-- The accumulator with a new bit in it, as a number, while no bit is lost (R200). -/
theorem toNat_shift_in (acc : Word) (bit : Bool) (h : acc.toNat < 2 ^ 25) :
    ((acc <<< 1) ||| (BitVec.ofBool bit).setWidth 32).toNat = 2 * acc.toNat + bit.toNat := by
  have hlt : 2 * acc.toNat < 2 ^ 32 := by omega
  have hs : (acc <<< 1).toNat = 2 * acc.toNat := by
    rw [BitVec.toNat_shiftLeft, Nat.shiftLeft_eq]
    omega
  have hb : ((BitVec.ofBool bit).setWidth 32).toNat = bit.toNat := by cases bit <;> rfl
  rw [BitVec.toNat_or, hs, hb]
  cases bit
  · simp
  · have : 2 * acc.toNat ||| 1 = 2 * acc.toNat + 1 := by
      rw [← Nat.two_pow_add_eq_or_of_lt (i := 1) (by omega : 1 < 2 ^ 1)]
    simpa using this

/-- SHIFT_IN keeps the bounds (R200). -/
theorem Decoder.shiftIn_fits (d : Decoder) (tRd tSt now : Time) (bit : Bool) (hd : d.Fits) :
    (d.shiftIn tRd tSt now bit).Fits := by
  obtain ⟨hc, ha, hr⟩ := hd
  have hck : (d.countKept tRd now).toNat ≤ 25 := by
    unfold Decoder.countKept
    split
    · simp
    · exact hc
  have hak : (d.accKept tRd now).toNat < 2 ^ (d.countKept tRd now).toNat := by
    unfold Decoder.countKept Decoder.accKept
    split
    · simp
    · exact ha
  have hp : 2 ^ (d.countKept tRd now).toNat ≤ 2 ^ 25 := Nat.pow_le_pow_right (by omega) hck
  have hn : (d.countKept tRd now + 1).toNat = (d.countKept tRd now).toNat + 1 := by
    rw [BitVec.toNat_add]
    simp
    omega
  have hw : (d.accWith tRd now bit).toNat < 2 ^ ((d.countKept tRd now).toNat + 1) := by
    rw [Decoder.accWith, toNat_shift_in _ _ (by omega), Nat.pow_succ]
    cases bit <;> simp <;> omega
  by_cases h : d.countKept tRd now + 1 = 26
  · cases hage : exceeds now d.tcred tSt
    · rw [Decoder.shiftIn_drops d tRd tSt now bit h hage]
      exact ⟨by simp, by simp, hr⟩
    · rw [Decoder.shiftIn_promotes d tRd tSt now bit h hage]
      refine ⟨by simp, by simp, ?_⟩
      rw [← hn, h] at hw
      exact hw
  · rw [Decoder.shiftIn_incomplete d tRd tSt now bit h]
    refine ⟨?_, ?_, hr⟩
    · have hne : (d.countKept tRd now + 1).toNat ≠ 26 := fun e => h (BitVec.eq_of_toNat_eq (by simpa using e))
      simp only
      omega
    · simp only [hn]
      exact hw

theorem Decoder.handle_fits (d : Decoder) (tRd tSt now : Time) (p : Pin) (level : Bool) (hd : d.Fits) :
    (d.handle tRd tSt now p level).Fits := by
  obtain h | ⟨-, -, ⟨-, h⟩ | ⟨-, -, h⟩⟩ := d.handle_cases tRd tSt now p level
  · rw [h]
    exact hd
  · rw [h]
    exact d.shiftIn_fits tRd tSt now false hd
  · rw [h]
    exact d.shiftIn_fits tRd tSt now true hd

/-- Writing an existing decoder's registers within the bounds keeps the invariants. -/
theorem State.setDec_keeps_inv (s : State) (k : DecIdx) (d : Decoder) (hs : Inv s) (hd : d.Fits)
    (hk : validDecoder s.cfg k = true) : Inv (s.setDec k d) := by
  constructor
  case count_below_width =>
    intro j
    by_cases h : k = j
    · simpa [h] using hd.1
    · simpa [h] using hs.count_below_width j
  case accumulator_fits =>
    intro j
    by_cases h : k = j
    · simpa [h] using hd.2.1
    · simpa [h] using hs.accumulator_fits j
  case credential_fits =>
    intro j
    by_cases h : k = j
    · simpa [h] using hd.2.2
    · simpa [h] using hs.credential_fits j
  case no_decoder_beyond_num_dec =>
    intro j hj
    have hne : k ≠ j := by
      rintro rfl
      simp [hk] at hj
    simpa [hne] using hs.no_decoder_beyond_num_dec j hj
  case mask_matches_table => exact hs.mask_matches_table
  case enabled_iff_active => exact hs.enabled_iff_active
  case no_stray_mask_bit => exact hs.no_stray_mask_bit
  case handles_valid => exact hs.handles_valid
  case empty_entry_is_zero => exact hs.empty_entry_is_zero
  case no_pin_beyond_n => exact hs.no_pin_beyond_n
  case sequencer_legal => exact hs.sequencer_legal
  case responses_legal => exact hs.responses_legal
  case no_assert_fail => exact hs.no_assert_fail

/-! ## Dispatch -/

/-- The dispatch of a registered pin keeps the invariants (R151, R152). -/
theorem State.dispatch_keeps_inv (s : State) (p : Pin) (level : Bool) (hs : Inv s) (hp : s.lvalidAt p = true) :
    Inv (s.dispatch p level) := by
  cases he : handleIsExternal (s.listenerAt p)
  · rw [s.dispatch_decoder p level hp he]
    have hk : validDecoder s.cfg (handleIndex (s.listenerAt p)) = true := by
      simpa [validHandle, he] using hs.handles_valid p hp
    exact s.setDec_keeps_inv _ _ hs (Decoder.handle_fits _ _ _ _ _ _ (hs.decoder_fits _)) hk
  · rw [s.dispatch_external p level hp he]
    exact ⟨hs.1, hs.2, hs.3, hs.4, hs.5, hs.6, hs.7, hs.8, hs.9, hs.10, hs.11, hs.12, hs.13⟩

/-- In a state with the invariants every active bit has a registered pin (R153). -/
theorem Inv.active_bit_registered {s : State} (hs : Inv s) (b : Bank) (i : Nat)
    (h : (s.maskAt b).getLsbD i = true) : s.lvalidAt (pinAt s.cfg b i) = true := by
  have hi8 : i < 8 := by
    by_contra hc
    rw [BitVec.getLsbD_of_ge _ _ (by omega)] at h
    simp at h
  have hw : i < bankWidth s.cfg b := by
    by_contra hc
    have := hs.no_stray_mask_bit b ⟨i, hi8⟩ (by simpa using hc)
    simp only at this
    rw [this] at h
    simp at h
  rw [hs.mask_matches_table _ (validPin_pinAt s.cfg b i hw), bankOf_pinAt s.cfg b i hw, bitOf_pinAt s.cfg b i hw, h]

end Sys2Proof.Machine
end

