-- ==== Sys2Proof/Laws/PerInstr.lean ====
section
/-! SUPPORT. Statements about every instruction, one lemma per constructor. -/

namespace Sys2Proof.Laws

/-- All the checks of a command word's fields at once (30_encoding.md R111, R113). -/
theorem wellFormed_checks (f : CommandFields) :
    f.wellFormed =
      ((f.op == 1 || f.op == 2 || f.op == 3 || f.op == 4 || f.op == 5) && f.rsv1 == 0 && f.rsv2 == 0 &&
        (f.op == 1 || (f.op == 2 && f.hk == 0) || (f.op != 2 && !f.hk.getLsbD 3)) && (f.op == 3 || f.pb == 0) &&
        ((f.op != 4 && f.op != 5) || f.pa == 0)) := rfl

/-- The fields a command is written in are those of a legal command word, whatever its operands are (30_encoding.md
R113): an operand's type admits exactly the values of its field. -/
def FieldsAreLegal.Statement (i : Instr) : Prop := i.wellFormed = true

theorem FieldsAreLegal.regAttach (h : Handle) (pa : Pin) : FieldsAreLegal.Statement (.regAttach h pa) := by
  simp [FieldsAreLegal.Statement, Instr.wellFormed, Instr.fields, wellFormed_checks]

theorem FieldsAreLegal.regDetach (pa : Pin) : FieldsAreLegal.Statement (.regDetach pa) := by
  simp [FieldsAreLegal.Statement, Instr.wellFormed, Instr.fields, wellFormed_checks]

theorem FieldsAreLegal.decAttach (k : DecIdx) (pb pa : Pin) : FieldsAreLegal.Statement (.decAttach k pb pa) := by
  simp [FieldsAreLegal.Statement, Instr.wellFormed, Instr.fields, wellFormed_checks]

theorem FieldsAreLegal.decDetach (k : DecIdx) : FieldsAreLegal.Statement (.decDetach k) := by
  simp [FieldsAreLegal.Statement, Instr.wellFormed, Instr.fields, wellFormed_checks]

theorem FieldsAreLegal.decGetid (k : DecIdx) : FieldsAreLegal.Statement (.decGetid k) := by
  simp [FieldsAreLegal.Statement, Instr.wellFormed, Instr.fields, wellFormed_checks]

theorem FieldsAreLegal.trig0 : FieldsAreLegal.Statement .trig0 := rfl

theorem FieldsAreLegal.trig1 : FieldsAreLegal.Statement .trig1 := rfl

theorem FieldsAreLegal.trig2 : FieldsAreLegal.Statement .trig2 := rfl

end Sys2Proof.Laws
end

