-- ==== Sys2Proof/Laws/Runs.lean ====
section
/-! SUPPORT. The runs and the dispatched bits that the statements speak of (Safety.lean). -/

namespace Sys2Proof.Machine

@[simp] theorem execTimes_zero (i : Instr) (s : State) : execTimes 0 i s = .next s := rfl

theorem execTimes_succ {i : Instr} {s t : State} (n : Nat) (h : exec i s = .next t) :
    execTimes (n + 1) i s = execTimes n i t := by
  simp [execTimes, h]

@[simp] theorem execAll_nil (s : State) : execAll [] s = .next s := rfl

theorem execAll_cons {i : Instr} {s t : State} (l : List Instr) (h : exec i s = .next t) :
    execAll (i :: l) s = execAll l t := by
  simp [execAll, h]

@[simp] theorem stepTimes_zero (s : State) : stepTimes 0 s = .next s := rfl

theorem stepTimes_succ {s t : State} (n : Nat) (h : step s = .next t) : stepTimes (n + 1) s = stepTimes n t := by
  simp [stepTimes, h]

/-- A run that answers a next state took a first step that does. -/
theorem stepTimes_succ_next {s u : State} {n : Nat} (h : stepTimes (n + 1) s = .next u) :
    ∃ t, step s = .next t ∧ stepTimes n t = .next u := by
  unfold stepTimes at h
  split at h
  · exact ⟨_, by assumption, h⟩
  · cases h
  · cases h

/-- Only the eight bits of the bank can be dispatched. -/
theorem dispatched_lt {s : State} {b : Bank} {i : Nat} (h : dispatched s b i = true) : i < 8 := by
  by_contra hc
  unfold dispatched at h
  rw [BitVec.getLsbD_of_ge _ i (by omega)] at h
  cases h

theorem mem_dispatchedBits {s : State} {b : Bank} {i : Nat} :
    i ∈ dispatchedBits s b ↔ dispatched s b i = true := by
  refine ⟨fun h => (List.mem_filter.mp h).2, fun h => List.mem_filter.mpr ⟨?_, h⟩⟩
  have := dispatched_lt h
  interval_cases i <;> simp

end Sys2Proof.Machine
end

