-- ==== Sys2Proof/Laws/Step.lean ====
section
/-! SUPPORT. What a step boundary can bring (Machine/Fetch.lean) and what a step does with it. -/

namespace Sys2Proof.Machine

/-- Held command words let nothing else come. -/
theorem firstOutside_commands (ws : List Word) : firstOutside (ws.map Input.command) = none := by
  induction ws with
  | nil => rfl
  | cons w rest ih => simp [firstOutside, ih]

/-- The state a turn goes on from: the environment may have written the levels and the time, and the script has moved;
nothing else differs. -/
abbrev State.sameBut (s t : State) : Prop :=
  t = { s with pinIn := t.pinIn, time := t.time, script := t.script }

theorem State.sequencerTurn_cases (s : State) :
    s.sequencerTurn = .outside s ∨ ∃ c, s.seq = .busy c ∧ s.sequencerTurn = .fetched (.command c.cmd) s := by
  cases h : s.seq with
  | idle => exact .inl (by simp [State.sequencerTurn, h])
  | busy c => exact .inr ⟨c, rfl, by simp [State.sequencerTurn, h]⟩

/-- Everything a turn can be. -/
theorem State.turn_cases (s : State) :
    (∃ t, s.turn = .outside t ∧ s.sameBut t) ∨ (∃ f t, s.turn = .fetched f t ∧ s.sameBut t) := by
  unfold State.turn
  split
  · obtain h | ⟨c, _, h⟩ := s.sequencerTurn_cases
    · exact .inl ⟨_, h, rfl⟩
    · exact .inr ⟨_, _, h, rfl⟩
  · rename_i e rest _
    cases e with
    | pins b v => exact .inl ⟨_, rfl, rfl⟩
    | time now => exact .inl ⟨_, rfl, rfl⟩
    | request b stray => exact .inr ⟨_, _, rfl, rfl⟩
    | command w => exact .inr ⟨_, _, rfl, rfl⟩
    | sequencer =>
      obtain h | ⟨c, _, h⟩ := (s.setScript rest).sequencerTurn_cases
      · exact .inl ⟨_, h, rfl⟩
      · exact .inr ⟨_, _, h, rfl⟩

/-- Everything a step that answers a next state can be: an act from outside, an instruction, or a rejected word. -/
theorem step_next_cases {s t : State} (h : step s = .next t) :
    s.assertFail = false ∧
      (s.sameBut t ∨
        ∃ f u, s.sameBut u ∧
          ((∃ i, decode f = .ok i ∧ exec i u = .next t) ∨ (∃ r, decode f = .error r) ∧ t = u.rejectFetched f)) := by
  unfold step at h
  split at h
  · cases h
  · rename_i hf
    refine ⟨by simpa using hf, ?_⟩
    obtain ⟨u, hu, hs⟩ | ⟨f, u, hu, hs⟩ := s.turn_cases <;> rw [hu] at h <;> simp only [] at h
    · cases h
      exact .inl hs
    · refine .inr ⟨f, u, hs, ?_⟩
      split at h
      · rename_i i hd
        exact .inl ⟨i, hd, h⟩
      · rename_i r hd
        cases h
        exact .inr ⟨⟨r, hd⟩, rfl⟩

end Sys2Proof.Machine
end

