-- ==== Sys2Proof/Tests/Slice0.lean ====
section
/-! SUPPORT. Tests. The words are written out from the encodings of 30_encoding.md R111 to R124; the states and results
of the one-step tests are the spec's own vectors (95_test_vectors.md, named in each comment). The witnesses at the end
meet the hypotheses of the statements in Certificates/Slice0/Obligations.lean, under the statement's name. -/

namespace Sys2Proof.Tests

open Sys2Proof Sys2Proof.Machine

/-! ## Ill-formed fields, one for each check -/

/-- The fields of REG.ATTACH 9, X0. -/
def goodFields : CommandFields := { op := 1, rsv1 := 0, hk := 8, rsv2 := 0, pb := 0, pa := 9 }

theorem test_good_fields : goodFields.wellFormed = true := by decide

theorem test_unassigned_opcode_is_ill_formed :
    { goodFields with op := 6 }.opAssigned = false ∧ { goodFields with op := 6 }.wellFormed = false := by decide

theorem test_rsv1_set_is_ill_formed :
    { goodFields with rsv1 := 1 }.rsv1Zero = false ∧ { goodFields with rsv1 := 1 }.wellFormed = false := by decide

theorem test_rsv2_set_is_ill_formed :
    { goodFields with rsv2 := 2 }.rsv2Zero = false ∧ { goodFields with rsv2 := 2 }.wellFormed = false := by decide

theorem test_handle_in_detach_is_ill_formed :
    { goodFields with op := 2 }.hkLegal = false ∧ { goodFields with op := 2 }.wellFormed = false := by decide

theorem test_bit15_of_decoder_command_is_ill_formed :
    { goodFields with op := 3 }.hkLegal = false ∧ { goodFields with op := 3 }.wellFormed = false := by decide

theorem test_pb_outside_dec_attach_is_ill_formed :
    { goodFields with pb := 1 }.pbLegal = false ∧ { goodFields with pb := 1 }.wellFormed = false := by decide

theorem test_pa_in_getid_is_ill_formed :
    { goodFields with op := 5, hk := 0 }.paLegal = false ∧ { goodFields with op := 5, hk := 0 }.wellFormed = false := by
  decide

/-! ## Decoding of words written out field by field: OP, RSV1, HK, RSV2, PB, PA -/

/-- V-DEC vectors and R126: REG.ATTACH 9, X0. -/
theorem test_decode_regAttach :
    decode (.command (0b0001#4 ++ 0#12 ++ 0b1000#4 ++ 0b00#2 ++ 0b00000#5 ++ 0b01001#5)) =
      .ok (.regAttach 0b1000 0b01001) := by decide

theorem test_decode_regDetach :
    decode (.command (0b0010#4 ++ 0#12 ++ 0b0000#4 ++ 0b00#2 ++ 0b00000#5 ++ 0b10011#5)) =
      .ok (.regDetach 0b10011) := by decide

/-- The zero-pin is PA, the one-pin is PB. -/
theorem test_decode_decAttach :
    decode (.command (0b0011#4 ++ 0#12 ++ 0b0001#4 ++ 0b00#2 ++ 0b01011#5 ++ 0b01010#5)) =
      .ok (.decAttach 0b001 0b01011 0b01010) := by decide

theorem test_decode_decDetach :
    decode (.command (0b0100#4 ++ 0#12 ++ 0b0110#4 ++ 0b00#2 ++ 0b00000#5 ++ 0b00000#5)) =
      .ok (.decDetach 0b110) := by decide

theorem test_decode_decGetid :
    decode (.command (0b0101#4 ++ 0#12 ++ 0b0011#4 ++ 0b00#2 ++ 0b00000#5 ++ 0b00000#5)) =
      .ok (.decGetid 0b011) := by decide

theorem test_decode_vectors :
    decode (.vector 0b00) = .ok .trig0 ∧ decode (.vector 0b01) = .ok .trig1 ∧
      decode (.vector 0b10) = .ok .trig2 ∧ decode (.vector 0b11) = .error .noSuchVector := by decide

/-- V-DEC-14, V-DEC-11, V-DEC-13 and V-DEC-18: bit 15 of a decoder command, RSV2, PA of DEC.DETACH, opcode 6. -/
theorem test_decode_rejects :
    decode (.command 0x40008000) = .error .reservedFieldSet ∧
      decode (.command 0x30007FFF) = .error .reservedFieldSet ∧
      decode (.command 0x40000001) = .error .reservedFieldSet ∧
      decode (.command 0x60000000) = .error .unassignedOpcode := by decide

/-- The table's numbering: 32 bits are a command word, one byte a vector number. -/
theorem test_decodeTableWord :
    decodeTableWord 32 0x1000A003 = some (.regAttach 0xA 3) ∧ decodeTableWord 8 1 = some .trig1 ∧
      decodeTableWord 8 3 = none := by decide

/-! ## States -/

/-- One field of the state an outcome goes on to. -/
def after {α : Type} (o : Host.Outcome State Fault Refusal) (f : State → α) : Option α :=
  match o with
  | .next s => some (f s)
  | .fault _ => none
  | .refused _ => none

/-- The fault an outcome ends in. -/
def faultOf (o : Host.Outcome State Fault Refusal) : Option Fault :=
  match o with
  | .next _ => none
  | .fault r => some r
  | .refused _ => none

/-- The end of V-REG-1: external listener 0 on pin 9. -/
def ext9 : State :=
  { State.reset with
    listener := State.reset.listener.set 9 0x8
    lvalid := State.reset.lvalid.set 9 true
    mask := #v[0x00, 0x02, 0x00]
    trigEn := #v[false, true, false] }

/-- The end of V-DATT-1: decoder 0 attached on pins 2 and 3. -/
def reader : State :=
  { State.reset with
    time := 110
    lvalid := (State.reset.lvalid.set 2 true).set 3 true
    mask := #v[0x0C, 0x00, 0x00]
    trigEn := #v[true, false, false]
    pullup := (State.reset.pullup.set 2 true).set 3 true
    dec := State.reset.dec.set 0 { Decoder.reset with attached := true, p0 := 2, p1 := 3 } }

/-- External listener 3 on pin 14, with the lines of bank 2 low at reset (V-TRIG-7). -/
def ext14 : State :=
  { State.powerOn Config.reference #v[0xFF, 0x3F, 0x00] 0 with
    listener := State.reset.listener.set 14 0xB
    lvalid := State.reset.lvalid.set 14 true
    mask := #v[0x00, 0x00, 0x01]
    trigEn := #v[false, false, true] }

/-- DEC.ATTACH D0, 2, 3 in progress with the given next phase, from reset. -/
def attaching (ph : Phase) (t0 now : Time) : State :=
  { State.reset with time := now, seq := .busy { cmd := 0x30000062, phase := ph, t0 := t0, ok0 := false, ok1 := false } }

/-! ## One-step tests -/

/-- V-REG-1. -/
theorem test_regAttach_registers :
    after (exec (.regAttach 0x8 9) State.reset) (fun t => (t.mask, t.trigEn, t.listenerAt 9, t.lvalidAt 9, t.resp)) =
      some (#v[0x00, 0x02, 0x00], #v[false, true, false], 0x8, true, [0x00000000]) := by decide

/-- V-REG-5: a second handle silently replaces the first. -/
theorem test_regAttach_replaces :
    after (exec (.regAttach 0xD 9) ext9) (fun t => (t.mask, t.trigEn, t.listenerAt 9, t.resp)) =
      some (#v[0x00, 0x02, 0x00], #v[false, true, false], 0xD, [0x00000000]) := by decide

/-- V-RDET-1: the bank's last active pin goes. -/
theorem test_regDetach_disables :
    after (exec (.regDetach 9) ext9) (fun t => (t.mask, t.trigEn, t.listenerAt 9, t.lvalidAt 9, t.resp)) =
      some (#v[0x00, 0x00, 0x00], #v[false, false, false], 0x0, false, [0x00000000]) := by decide

/-- V-RDET-4: another pin of the bank stays active, and the decoder stays attached. -/
theorem test_regDetach_keeps_others :
    after (exec (.regDetach 3) reader) (fun t => (t.mask, t.trigEn, t.decAt 0)) =
      some (#v[0x04, 0x00, 0x00], #v[true, false, false], reader.decAt 0) := by decide

/-- Phase A1 of V-DATT-1: the zero-pin is PA, the one-pin PB. -/
theorem test_decAttach_binds :
    after (exec (.decAttach 0 3 2) (attaching .a1 0 100)) (fun t => t.decAt 0) =
      some { Decoder.reset with attached := true, p0 := 2, p1 := 3 } := by decide

/-- V-DATT-7: phase A5 still waits 9 ms after t0, and goes on at 10 ms. -/
theorem test_decAttach_settles :
    after (exec (.decAttach 0 3 2) (attaching .a5 5000 5009)) State.seq = some (attaching .a5 5000 5009).seq ∧
      after (exec (.decAttach 0 3 2) (attaching .a5 5000 5010)) State.seq = some (attaching .a6 5000 5010).seq := by
  decide

/-- V-DDET-2: an unattached decoder goes straight to D3. -/
theorem test_decDetach_skips_pins :
    after (exec (.decDetach 1) State.reset) State.seq =
      some (.busy { cmd := 0x40001000, phase := .d3, t0 := 0, ok0 := false, ok1 := false }) := by decide

/-- Phase D3 of V-DDET-5: TLAST and TCRED are kept. -/
theorem test_decDetach_keeps_times :
    after
        (exec (.decDetach 0)
          { State.reset with
            dec := State.reset.dec.set 0
              { attached := true, p0 := 2, p1 := 3, bitcnt := 3, acc := 0x5, tlast := 3990, cred := 0x99, tcred := 4000 }
            seq := .busy { cmd := 0x40000000, phase := .d3, t0 := 0, ok0 := false, ok1 := false } })
        (fun t => (t.decAt 0, t.seq, t.resp)) =
      some ({ Decoder.reset with tlast := 3990, tcred := 4000 }, .idle, [0x00000000]) := by decide

/-- The state of V-GET at the given time: decoder 0 with the given credential. -/
def withCredential (cred : Word) (tcred now : Time) : State :=
  { State.reset with time := now, dec := State.reset.dec.set 0 { Decoder.reset with cred := cred, tcred := tcred } }

/-- V-GET-3: at age `T_ST` the credential is returned and consumed. -/
theorem test_decGetid_returns :
    after (exec (.decGetid 0) (withCredential 0x123 2000 3000)) (fun t => (t.decAt 0, t.resp)) =
      some ({ Decoder.reset with tcred := 2000 }, [0x00000123]) := by decide

/-- V-GET-4: one millisecond later it is not returned, and still consumed. -/
theorem test_decGetid_stale :
    after (exec (.decGetid 0) (withCredential 0x123 2000 3001)) (fun t => (t.decAt 0, t.resp)) =
      some ({ Decoder.reset with tcred := 2000 }, [0x00000000]) := by decide

/-- V-TRIG-8: both pins of a decoder fall in one sample; the zero-pin's bit goes in first. -/
theorem test_trig0_two_bits :
    after (exec .trig0 { reader with time := 5000, pinIn := #v[0xF3, 0xFF, 0xFF] })
        (fun t => (t.decAt 0, t.prev, t.evt)) =
      some ({ Decoder.reset with attached := true, p0 := 2, p1 := 3, bitcnt := 2, acc := 0x1, tlast := 5000 },
        #v[0xF3, 0xFF, 0xFF], []) := by decide

/-- V-DISP-3: an active pin with no listener sets the debug flag, and the next step is the fault. -/
theorem test_trig0_unbound_pin :
    after (exec .trig0 { reader with pinIn := #v[0xF7, 0xFF, 0xFF], lvalid := reader.lvalid.set 3 false })
        (fun t => (t.assertFail, t.decAt 0, t.evt, faultOf (step t))) =
      some (true, reader.decAt 0, [], some .assertFailed) := by decide

/-- V-TRIG-1: pin 8 changed too, and is not active. -/
theorem test_trig1_active_pin_only :
    after (exec .trig1 { ext9 with pinIn := #v[0xFF, 0x00, 0xFF], prev := #v[0xFF, 0x03, 0xFF] })
        (fun t => (t.evt, t.prev)) =
      some ([.ext 0 9 false], #v[0xFF, 0x00, 0xFF]) := by decide

/-- V-TRIG-9: not admitted while the bank's trigger is disabled. -/
theorem test_trig1_not_admitted :
    after (exec .trig1 { State.reset with pinIn := #v[0xFF, 0x00, 0xFF] }) id =
      some { State.reset with pinIn := #v[0xFF, 0x00, 0xFF] } := by decide

/-- V-TRIG-7: a rising edge passes level 1. -/
theorem test_trig2_rising_edge :
    after (exec .trig2 { ext14 with pinIn := #v[0xFF, 0x3F, 0x01] }) (fun t => (t.evt, t.prev)) =
      some ([.ext 3 14 true], #v[0xFF, 0x3F, 0x01]) := by decide

/-- V-TRIG-6: bits with no pin behind them are stored and never dispatched. -/
theorem test_trig2_stray_bits :
    after (exec .trig2 { ext14 with prev := #v[0xFF, 0x3F, 0x3F], pinIn := #v[0xFF, 0x3F, 0xFF] })
        (fun t => (t.evt, t.prev)) =
      some ([], #v[0xFF, 0x3F, 0xFF]) := by decide

/-- V-SH-1, V-SH-3, V-SH-5: promotion, the timeout discard, and the drop at age `T_ST`. -/
theorem test_shiftIn :
    { Decoder.reset with bitcnt := 25, acc := 0x1555555, tlast := 5000 }.shiftIn 100 1000 5010 false =
        { Decoder.reset with tlast := 5010, cred := 0x2AAAAAA, tcred := 5010 } ∧
      { Decoder.reset with bitcnt := 5, acc := 0x15, tlast := 1000 }.shiftIn 100 1000 1101 true =
        { Decoder.reset with bitcnt := 1, acc := 0x1, tlast := 1101 } ∧
      { Decoder.reset with bitcnt := 25, tlast := 2990, cred := 0x123, tcred := 2000 }.shiftIn 100 1000 3000 true =
        { Decoder.reset with tlast := 3000, cred := 0x123, tcred := 2000 } := by decide

/-- A word on the port of a busy block stays there; the environment and the phases go on (R90, R91). -/
theorem test_step_holds_word :
    after (step { attaching .a1 0 100 with script := [.command 0x50000000] }) (fun t => (t.script, t.seq)) =
        some ([.command 0x50000000], (attaching .a2 0 100).seq) ∧
      after (step { attaching .a5 100 105 with script := [.command 0x50000000, .time 110] }) (fun t => (t.script, t.time)) =
        some ([.command 0x50000000], 110) := by decide

/-- A presented word or request is what the next step runs: V-REG-1, and V-TRIG-7 on its own levels. -/
theorem test_withFetchWord :
    after (step (State.reset.withFetchWord 32 0x10008009)) id = after (exec (.regAttach 8 9) State.reset) id ∧
      after (step ({ ext14 with pinIn := #v[0xFF, 0x3F, 0x01] }.withFetchWord 8 2)) (fun t => (t.evt, t.script)) =
        some ([.ext 3 14 true], []) := by decide

/-! ## Witnesses: a concrete input that meets the hypotheses of each statement that has any -/

theorem witness_DecodeOfEncodeIsTheInstruction :
    (Instr.decAttach 7 31 31).wellFormed = true ∧ (Instr.regAttach 15 0).wellFormed = true ∧
      Instr.trig2.wellFormed = true := by decide

theorem witness_EncodeOfDecodeIsTheWord :
    decode (.command 0x300073FF) = .ok (.decAttach 7 31 31) ∧ decode (.vector 2) = .ok .trig2 := by decide

theorem witness_MaskTableAgreesWithFieldRules :
    decode (.command 0x1000F01F) = .ok (.regAttach 15 31) ∧ (commandFields 0x1000F01F).wellFormed = true ∧
      decode (.command 0x30007FFF) = .error .reservedFieldSet ∧ (commandFields 0x30007FFF).wellFormed = false := by
  decide

theorem witness_IllegalWordIsAnsweredIllegal :
    (commandFields 0).wellFormed = false ∧ (commandFields 0x20000029).wellFormed = false ∧
      (commandFields 0xFFFFFFFF).wellFormed = false ∧ State.reset.assertFail = false ∧ State.reset.seq = .idle ∧
      { State.reset with script := [.command 0x20000029] }.script = .command 0x20000029 :: [] := by decide

theorem witness_StepRunsAcceptedCommand :
    let s := { ext9 with script := [.command 0x10008009, .time 5] }
    s.assertFail = false ∧ s.seq = .idle ∧ s.script = .command 0x10008009 :: [.time 5] ∧
      decode (.command 0x10008009) = .ok (.regAttach 8 9) := by decide

/-- The common hypotheses, and the two clauses' own. -/
theorem witness_StepRunsCommandInProgress :
    let c : Command := { cmd := 0x30000062, phase := .a5, t0 := 7, ok0 := true, ok1 := false }
    let s := { reader with seq := .busy c }
    s.assertFail = false ∧ s.seq = .busy c ∧ decode (.command c.cmd) = .ok (.decAttach 0 3 2) ∧
      { s with script := [.command 0] }.script = [0].map Input.command ∧ s.script = [].map Input.command ∧
      { s with script := [.sequencer] }.script = .sequencer :: [] := by decide

theorem witness_HeldCommandIsNotLost :
    let c : Command := { cmd := 0x30000062, phase := .a5, t0 := 7, ok0 := true, ok1 := false }
    let s := { reader with seq := .busy c, script := [.command 0x50000000, .time 17, .sequencer] }
    s.assertFail = false ∧ s.seq = .busy c ∧ s.script = .command 0x50000000 :: .time 17 :: [.sequencer] ∧
      ∀ v, Input.time 17 ≠ .command v := by
  refine ⟨by decide, by decide, by decide, ?_⟩
  intro v h
  cases h

theorem witness_StepRunsBankTrigger :
    let s := { ext9 with script := [.request 1 0xC0, .sequencer] }
    s.assertFail = false ∧ s.script = .request 1 0xC0 :: [.sequencer] := by decide

/-- The common hypothesis, and the four clauses' own. -/
theorem witness_EnvironmentMovesInputsOnly :
    let s := { reader with script := [.pins 2 0x5A] }
    s.assertFail = false ∧ s.script = .pins 2 0x5A :: [] ∧
      { s with script := [.time 0xFFFFFFFF] }.script = .time 0xFFFFFFFF :: [] ∧
      { s with script := [.sequencer] }.script = .sequencer :: [] ∧ s.seq = .idle ∧
      { s with script := [] }.script = [] := by decide

theorem witness_PresentedWordRunsNext :
    reader.assertFail = false ∧ reader.seq = .idle ∧ decodeTableWord 32 0x50001000 = some (.decGetid 1) ∧
      decodeTableWord 8 2 = some .trig2 := by decide

/-- The invariants hold in a state in which a decoder is attached, and in the middle of DEC.ATTACH. -/
theorem inv_reader : Inv reader :=
  ⟨by decide, by decide, by decide, by decide, by decide, by decide, by decide, by decide, by decide, by decide,
    by decide, by decide, by decide⟩

theorem inv_attaching : Inv (attaching .a2 0 100) :=
  ⟨by decide, by decide, by decide, by decide, by decide, by decide, by decide, by decide, by decide, by decide,
    by decide, by decide, by decide⟩

theorem witness_EveryStepKeepsInvariants :
    Inv (attaching .a2 0 100) ∧ after (step (attaching .a2 0 100)) (fun t => t.maskAt 0) = some 0x04 :=
  ⟨inv_attaching, by decide⟩

theorem witness_NothingStopsTheBlock : Inv reader := inv_reader

/-- The first and the last pin, and the last decoder handle. -/
theorem witness_RegAttachNetEffect :
    ext9.seq = .idle ∧ validPin ext9.cfg 0 = true ∧ validPin ext9.cfg 19 = true ∧ validHandle ext9.cfg 1 = true ∧
      validHandle ext9.cfg 15 = true ∧
      ext9.trigEnAt (bankOf ext9.cfg 0) = decide (ext9.maskAt (bankOf ext9.cfg 0) ≠ 0) ∧
      ext9.trigEnAt (bankOf ext9.cfg 19) = decide (ext9.maskAt (bankOf ext9.cfg 19) ≠ 0) ∧
      ext9.trigEnAt (bankOf ext9.cfg 9) = decide (ext9.maskAt (bankOf ext9.cfg 9) ≠ 0) := by decide

/-- Index N, and the decoder handle NUM_DEC. -/
theorem witness_RegAttachRejectsBadOperands :
    State.reset.seq = .idle ∧ pinCount State.reset.cfg ≤ (20 : Pin).toNat ∧
      ((2 : Handle).getLsbD 3 = false ∧ State.reset.cfg.numDec ≤ ((2 : Handle).extractLsb' 0 3).toNat) := by decide

/-- The encoding's clause, index N, index N - 1. -/
theorem witness_RegDetachRemovesRegistration :
    (0x20000013 : Word) &&& 0xFFFFFFE0 = 0x20000000 ∧ reader.seq = .idle ∧ pinCount reader.cfg ≤ (20 : Pin).toNat ∧
      (19 : Pin).toNat < pinCount reader.cfg ∧ (2 : Pin).toNat < pinCount reader.cfg := by decide

theorem witness_RegDetachOfUnregisteredPinIsNoOp :
    Inv reader ∧ reader.seq = .idle ∧ reader.lvalidAt 19 = false ∧ reader.lvalidAt 20 = false :=
  ⟨inv_reader, by decide, by decide, by decide⟩

theorem witness_MaskBitFollowsLastCommand :
    State.reset.seq = .idle ∧ validPin State.reset.cfg 19 = true ∧
      ∀ h, some h ∈ [some (8 : Handle), none, some (1 : Handle)] → validHandle State.reset.cfg h = true := by
  refine ⟨by decide, by decide, ?_⟩
  intro h
  revert h
  decide

theorem witness_RequestWithTriggerDisabledHasNoEffect : ext9.trigEnAt 0 = false ∧ ext9.trigEnAt 2 = false := by decide

/-- Also for TrigEmitsChangedExternalPinsInOrder, TrigHandlesDecoderPinsInOrder and UnboundActivePinSetsAssertFail. -/
theorem witness_TrigStoresSampleAndFrame :
    reader.trigEnAt 0 = true ∧ ext9.trigEnAt 1 = true ∧ ext14.trigEnAt 2 = true := by decide

/-- An inactive pin of bank 1 has changed. -/
theorem witness_SpuriousTriggerOnlyStoresSample :
    let s := { ext9 with pinIn := #v[0xFF, 0xFE, 0xFF] }
    s.trigEnAt 1 = true ∧ s.maskAt 1 &&& (s.pinIn[1] ^^^ s.prevAt 1) = 0 ∧ s.pinIn[1] ≠ s.prevAt 1 := by decide

/-- The active pin 9 has fallen; every other bit of the bank is turned over. -/
theorem witness_InactivePinsHaveNoInfluence :
    let s := { ext9 with pinIn := #v[0xFF, 0xFD, 0xFF] }
    s.trigEnAt 1 = true ∧ ∀ i, (s.maskAt 1).getLsbD i = true →
      (0x00 : Byte).getLsbD i = s.pinIn[1].getLsbD i ∧ (0x02 : Byte).getLsbD i = (s.prevAt 1).getLsbD i := by
  refine ⟨by decide, ?_⟩
  intro i h
  have hi : i < 8 := by
    by_contra hc
    rw [BitVec.getLsbD_of_ge _ i (by omega)] at h
    cases h
  revert h
  interval_cases i <;> decide

/-- Decoder 1 is not attached; and no registered pin names it. -/
theorem witness_DetachedOrUnnamedDecoderIsDeaf :
    reader.trigEnAt 0 = true ∧ (reader.decAt 1).attached = false ∧
      ∀ p, reader.lvalidAt p = true → reader.listenerAt p ≠ decoderHandle 1 := by decide

theorem witness_RisingEdgesChangeNoDecoder :
    let s := { reader with prev := #v[0xF3, 0xFF, 0xFF] }
    s.trigEnAt 0 = true ∧ dispatched s 0 2 = true ∧ ∀ i, dispatched s 0 i = true → s.pinIn[0].getLsbD i = true := by
  refine ⟨by decide, by decide, ?_⟩
  intro i h
  have hi := dispatched_lt h
  revert h
  interval_cases i <;> decide

/-- A falling one-pin. -/
theorem witness_OneFallingEdgeShiftsOneBit_one :
    let s := { reader with pinIn := #v[0xF7, 0xFF, 0xFF] }
    s.trigEnAt 0 = true ∧ dispatchedBits s 0 = [3] ∧ s.pinIn[0].getLsbD 3 = false ∧
      s.lvalidAt (pinAt s.cfg 0 3) = true ∧ s.listenerAt (pinAt s.cfg 0 3) = decoderHandle 0 ∧
      (s.decAt 0).attached = true ∧ pinAt s.cfg 0 3 ≠ (s.decAt 0).p0 ∧ pinAt s.cfg 0 3 = (s.decAt 0).p1 := by decide

/-- A falling zero-pin, as the 26th bit. -/
theorem witness_OneFallingEdgeShiftsOneBit_zero :
    let d : Decoder := { reader.decAt 0 with bitcnt := 25 }
    let s := { reader with pinIn := #v[0xFB, 0xFF, 0xFF], dec := reader.dec.set 0 d }
    s.trigEnAt 0 = true ∧ dispatchedBits s 0 = [2] ∧ s.pinIn[0].getLsbD 2 = false ∧
      s.lvalidAt (pinAt s.cfg 0 2) = true ∧ s.listenerAt (pinAt s.cfg 0 2) = decoderHandle 0 ∧
      (s.decAt 0).attached = true ∧ pinAt s.cfg 0 2 = (s.decAt 0).p0 := by decide

/-- Gaps of 0 and of `T_RD`; the age at the last bit is one more than `T_ST`. -/
theorem witness_CompleteReadYieldsBitsInArrivalOrder :
    let bits : List (Time × Bool) := List.replicate 25 (901, true)
    let last : Time × Bool := (1001, false)
    Decoder.reset.bitcnt = 0 ∧ Decoder.reset.acc = 0 ∧ (bits ++ [last]).length = 26 ∧
      gapsWithin 100 (bits ++ [last]) = true ∧ (1000 : Time) < last.1 - Decoder.reset.tcred := by decide

/-- A gap of `T_RD` + 1, and 25 bits after it. -/
theorem witness_BitsAcrossTimeoutNeverJoin :
    let before : List (Time × Bool) := [(50, true), (60, false)]
    let first : Time × Bool := (161, true)
    let rest : List (Time × Bool) := List.replicate 24 (170, false)
    (100 : Time) < first.1 - (Decoder.reset.feed 100 1000 before).tlast ∧ (first :: rest).length ≤ 25 ∧
      gapsWithin 100 (first :: rest) = true := by decide

/-- The age `T_ST` itself. -/
theorem witness_RecentReadsAreDropped :
    ∀ e ∈ [((999 : Time), true), (1000, false)], ¬(1000 : Time) < e.1 - Decoder.reset.tcred := by
  simp [Decoder.reset]

/-- The first index that names no decoder. -/
theorem witness_MissingDecoderIsAnsweredFalse :
    State.reset.seq = .idle ∧ State.reset.cfg.numDec ≤ (2 : DecIdx).toNat := by decide

/-- The encoding's clause, index NUM_DEC, index NUM_DEC - 1. -/
theorem witness_GetidReturnsAndConsumes :
    (0x50001000 : Word) &&& 0xFFFF8FFF = 0x50000000 ∧ reader.seq = .idle ∧ reader.cfg.numDec ≤ (2 : DecIdx).toNat ∧
      (1 : DecIdx).toNat < reader.cfg.numDec := by decide

theorem witness_SecondGetidReturnsZero :
    (withCredential 0x123 2000 3000).seq = .idle ∧ (0 : DecIdx).toNat < (withCredential 0x123 2000 3000).cfg.numDec := by
  decide

theorem witness_DecAttachBegins :
    reader.seq = .idle ∧ (1 : DecIdx).toNat < reader.cfg.numDec ∧
      encode (.decAttach 1 11 10) = .command 0x3000116A := by decide

/-- Also for DecDetachCompletes. -/
theorem witness_ReattachDetachesFirst :
    reader.seq = .idle ∧ (0 : DecIdx).toNat < reader.cfg.numDec ∧ (reader.decAt 0).attached = true := by decide

/-- The settle pause's boundary, over a wrap of `TIME`. -/
theorem witness_DecAttachCompletes :
    let c : Command := { cmd := 0x30000062, phase := .a1, t0 := 0, ok0 := false, ok1 := false }
    let s := attaching .a1 0 0xFFFFFFFE
    s.seq = .busy c ∧ c.phase = .a1 ∧ encode (.decAttach 0 3 2) = .command c.cmd ∧
      (0 : DecIdx).toNat < s.cfg.numDec ∧ s.cfg.settleMs ≤ (8 : Time) - s.time := by decide

theorem witness_SettlePauseWaitsForTime :
    let c : Command := { cmd := 0x30000062, phase := .a5, t0 := 5000, ok0 := false, ok1 := false }
    (attaching .a5 5000 5009).seq = .busy c ∧ c.phase = .a5 ∧ encode (.decAttach 0 3 2) = .command c.cmd := by decide

theorem witness_DetachOfUnattachedDecoderTouchesNoPin :
    reader.seq = .idle ∧ (1 : DecIdx).toNat < reader.cfg.numDec ∧ (reader.decAt 1).attached = false := by decide

theorem witness_CommandIsHeldWhileAnotherRuns :
    let c : Command := { cmd := 0x30000062, phase := .a5, t0 := 5000, ok0 := false, ok1 := false }
    (attaching .a5 5000 5009).seq = .busy c ∧ encode (.decGetid 0) = .command 0x50000000 ∧
      (0x50000000 : Word) ≠ c.cmd := by decide

theorem witness_PullupsAreNeverCleared :
    reader.pullupAt 2 = true ∧ after (step { reader with script := [.command 0x40000000] }) State.isBusy = some true := by
  decide

theorem witness_CommandsNeverWriteInterruptState : encode (.decGetid 1) = .command 0x50001000 := by decide

theorem witness_CommandsTouchOnlyTheirDecoder : (1 : DecIdx) ≠ 0 := by decide

theorem witness_OutputStreamsOnlyGrow :
    after (step { ext9 with pinIn := #v[0xFF, 0xFD, 0xFF], script := [.request 1 0] }) State.evt =
      some [.ext 0 9 false] := by decide

/-- V-HND-4's state: pin 5 is registered to decoder 0, attached on pins 2 and 3, and has fallen. -/
theorem witness_EdgeOnUnassignedPinIsNoBit :
    let s := { reader with
      lvalid := reader.lvalid.set 5 true, mask := #v[0x2C, 0x00, 0x00], pinIn := #v[0xDF, 0xFF, 0xFF] }
    s.trigEnAt 0 = true ∧ (s.decAt 0).attached = true ∧ dispatchedBits s 0 = [5] ∧ s.pinIn[0].getLsbD 5 = false ∧
      s.lvalidAt (pinAt s.cfg 0 5) = true ∧ s.listenerAt (pinAt s.cfg 0 5) = decoderHandle 0 ∧
      ∀ i, dispatched s 0 i = true → s.lvalidAt (pinAt s.cfg 0 i) = true →
        s.listenerAt (pinAt s.cfg 0 i) = decoderHandle 0 →
        pinAt s.cfg 0 i ≠ (s.decAt 0).p0 ∧ pinAt s.cfg 0 i ≠ (s.decAt 0).p1 := by
  refine ⟨by decide, by decide, by decide, by decide, by decide, by decide, ?_⟩
  intro i h
  have hi := dispatched_lt h
  revert h
  interval_cases i <;> decide

/-- V-DISP-3's state. -/
theorem witness_UnboundPinsAreSkipped :
    let s := { reader with pinIn := #v[0xF7, 0xFF, 0xFF], lvalid := reader.lvalid.set 3 false }
    s.trigEnAt 0 = true ∧ dispatchedBits s 0 ≠ [] ∧
      ∀ i, dispatched s 0 i = true → s.lvalidAt (pinAt s.cfg 0 i) = false := by
  refine ⟨by decide, by decide, ?_⟩
  intro i h
  have hi := dispatched_lt h
  revert h
  interval_cases i <;> decide

/-- V-DISP-3's state: the flag is clear before the step and the trigger, and set after each. -/
theorem witness_AssertFailHasNoOtherSource :
    let s := { reader with
      pinIn := #v[0xF7, 0xFF, 0xFF], lvalid := reader.lvalid.set 3 false, script := [.request 0 0] }
    s.assertFail = false ∧ after (step s) State.assertFail = some true ∧
      after (exec .trig0 s) State.assertFail = some true ∧
      after (exec .trig0 { s with assertFail := true }) State.assertFail = some true := by decide

/-- A stale and a fresh TCRED. -/
theorem witness_EmptyCredentialReadsZero :
    (withCredential 0 2000 3000).seq = .idle ∧ (0 : DecIdx).toNat < (withCredential 0 2000 3000).cfg.numDec ∧
      ((withCredential 0 2000 3000).decAt 0).cred = 0 ∧ ((withCredential 0 0 3000).decAt 0).cred = 0 := by decide

/-- The hypotheses on the run: after a DEC.GETID of decoder 0, a falling edge shifts a bit into it, and nothing is
promoted. -/
theorem witness_GetidAfterNoPromotionReturnsZero :
    let s : State := { reader with
      time := 3000, pinIn := #v[0xF7, 0xFF, 0xFF]
      dec := reader.dec.set 0 { reader.decAt 0 with cred := 0x123, tcred := 2000 } }
    let t : State := { s with
      dec := s.dec.set 0 { s.decAt 0 with cred := 0 }, resp := [0x00000123]
      script := [.request 0 0xFF, .time 3001] }
    s.seq = .idle ∧ (0 : DecIdx).toNat < s.cfg.numDec ∧
      after (exec (.decGetid 0) s) (fun u => { u with script := t.script }) = some t ∧
      after (stepTimes 2 t) (fun u => ((u.decAt 0).bitcnt, u.seq)) = some (1, .idle) ∧
      ∀ m : Fin 3, after (stepTimes m.val t) (fun v => (v.decAt 0).tcred) = some (t.decAt 0).tcred := by decide

/-- Bits in progress and a credential stand in the decoder when the last phase comes (V-DATT-6). -/
theorem witness_AttachLastPhaseResets :
    let c : Command := { cmd := 0x30000062, phase := .a6, t0 := 5000, ok0 := true, ok1 := true }
    let d : Decoder := { reader.decAt 0 with bitcnt := 1, acc := 1, tlast := 5000, cred := 0x99, tcred := 4000 }
    let s := { reader with seq := .busy c, dec := reader.dec.set 0 d }
    s.seq = .busy c ∧ c.phase = .a6 ∧ encode (.decAttach 0 3 2) = .command c.cmd := by decide

theorem witness_ImplicitDetachLastPhaseResets :
    let c : Command := { cmd := 0x3000116A, phase := .dd3, t0 := 0, ok0 := false, ok1 := false }
    ({ reader with seq := .busy c } : State).seq = .busy c ∧ c.phase = .dd3 ∧
      encode (.decAttach 1 11 10) = .command c.cmd := by decide

theorem witness_DetachLastPhaseResets :
    let c : Command := { cmd := 0x40000000, phase := .d3, t0 := 0, ok0 := false, ok1 := false }
    ({ reader with seq := .busy c } : State).seq = .busy c ∧ c.phase = .d3 ∧
      encode (.decDetach 0) = .command c.cmd := by decide

/-- A phase in the middle of DEC.ATTACH, and one of DEC.DETACH. -/
theorem witness_OnlyLastPhasesResetDecoders :
    (∀ c, (attaching .a4 0 100).seq = .busy c → c.phase ≠ .dd3 ∧ c.phase ≠ .a6 ∧ c.phase ≠ .d3) ∧
      (∀ c, (attaching .d2 0 100).seq = .busy c → c.phase ≠ .dd3 ∧ c.phase ≠ .a6 ∧ c.phase ≠ .d3) := by
  constructor <;> intro c h <;> cases h <;> decide

end Sys2Proof.Tests
end

section
/-! What each register read returns after power-on (10_state.md R59), one lemma per state element. Each table starts
filled with one value, so it reads that value at every index. -/

namespace Sys2Proof.Machine

/-! ## The table of R59, row by row -/

/-- The one row from the source: the previous sample starts as the live levels (R32). -/
@[simp] theorem State.powerOn_prevAt (cfg : Config) (pins : Vector Byte 3) (now : Time) (b : Bank) :
    (State.powerOn cfg pins now).prevAt b = (State.powerOn cfg pins now).samplePins b := rfl

@[simp] theorem State.powerOn_maskAt (cfg : Config) (pins : Vector Byte 3) (now : Time) (b : Bank) :
    (State.powerOn cfg pins now).maskAt b = 0 := Vector.getElem_replicate b.isLt

@[simp] theorem State.powerOn_trigEnAt (cfg : Config) (pins : Vector Byte 3) (now : Time) (b : Bank) :
    (State.powerOn cfg pins now).trigEnAt b = false := Vector.getElem_replicate b.isLt

@[simp] theorem State.powerOn_lvalidAt (cfg : Config) (pins : Vector Byte 3) (now : Time) (p : Pin) :
    (State.powerOn cfg pins now).lvalidAt p = false := Vector.getElem_replicate p.isLt

@[simp] theorem State.powerOn_listenerAt (cfg : Config) (pins : Vector Byte 3) (now : Time) (p : Pin) :
    (State.powerOn cfg pins now).listenerAt p = 0 := Vector.getElem_replicate p.isLt

@[simp] theorem State.powerOn_pullupAt (cfg : Config) (pins : Vector Byte 3) (now : Time) (p : Pin) :
    (State.powerOn cfg pins now).pullupAt p = false := Vector.getElem_replicate p.isLt

@[simp] theorem State.powerOn_decAt (cfg : Config) (pins : Vector Byte 3) (now : Time) (k : DecIdx) :
    (State.powerOn cfg pins now).decAt k = Decoder.reset := Vector.getElem_replicate k.isLt

@[simp] theorem State.powerOn_seq (cfg : Config) (pins : Vector Byte 3) (now : Time) :
    (State.powerOn cfg pins now).seq = .idle := rfl

@[simp] theorem State.powerOn_evt (cfg : Config) (pins : Vector Byte 3) (now : Time) :
    (State.powerOn cfg pins now).evt = [] := rfl

@[simp] theorem State.powerOn_assertFail (cfg : Config) (pins : Vector Byte 3) (now : Time) :
    (State.powerOn cfg pins now).assertFail = false := rfl

/-- The eight decoder rows of R59. -/
theorem Decoder.reset_values :
    Decoder.reset.attached = false ∧ Decoder.reset.p0 = 0 ∧ Decoder.reset.p1 = 0 ∧ Decoder.reset.bitcnt = 0 ∧
      Decoder.reset.acc = 0 ∧ Decoder.reset.tlast = 0 ∧ Decoder.reset.cred = 0 ∧ Decoder.reset.tcred = 0 :=
  ⟨rfl, rfl, rfl, rfl, rfl, rfl, rfl, rfl⟩

end Sys2Proof.Machine

namespace Sys2Proof
open Machine

/-- Settles O13: the rows of the table, each by its own lemma; the decoder rows hold of every decoder because each one
starts as `Decoder.reset`. -/
theorem powerOnValues : Obligations.PowerOnValues := by
  intro cfg pins now s
  have decoders (k : DecIdx) : s.decAt k = Decoder.reset := State.powerOn_decAt cfg pins now k
  refine ⟨State.powerOn_prevAt cfg pins now, State.powerOn_maskAt cfg pins now, State.powerOn_trigEnAt cfg pins now,
    State.powerOn_lvalidAt cfg pins now, State.powerOn_listenerAt cfg pins now, State.powerOn_pullupAt cfg pins now,
    fun k => ?_, State.powerOn_seq cfg pins now, State.powerOn_evt cfg pins now, State.powerOn_assertFail cfg pins now⟩
  rw [decoders k]
  exact Decoder.reset_values

end Sys2Proof
end

section
/-! The decoder commands on an idle port: each runs its first phase, and where its decoder is missing that phase is the
answer FALSE (30_encoding.md R116). -/

namespace Sys2Proof.Machine

/-! ## What a decoder command runs on an idle port -/

theorem exec_decAttach_idle (s : State) (k : DecIdx) (pb pa : Pin) (h : s.seq = .idle) :
    exec (.decAttach k pb pa) s = .next (decAttachFirst k pb pa s) :=
  congrArg Host.Outcome.next (State.onPort_idle s _ _ _ h)

theorem exec_decDetach_idle (s : State) (k : DecIdx) (h : s.seq = .idle) :
    exec (.decDetach k) s = .next (decDetachFirst k s) :=
  congrArg Host.Outcome.next (State.onPort_idle s _ _ _ h)

theorem exec_decGetid_idle (s : State) (k : DecIdx) (h : s.seq = .idle) :
    exec (.decGetid k) s = .next (decGetidBody k s) :=
  congrArg Host.Outcome.next (State.onIdle_idle s _ h)

/-! ## The answer FALSE -/

theorem validDecoder_eq_false_iff (c : Config) (k : DecIdx) : validDecoder c k = false ↔ c.numDec ≤ k.toNat := by
  simp [validDecoder]

/-- Answering from an idle port appends the response and changes nothing else: the port is left as it was. -/
theorem State.respond_idle (s : State) (st : Status) (data : BitVec 26) (h : s.seq = .idle) :
    s.respond st data = { s with resp := s.resp ++ [responseWord st data] } := by
  rw [State.respond_eq, ← h]

/-- The response word of FALSE (R118). -/
theorem responseWord_rejected_zero : responseWord .rejected 0 = 0x40000000 := by decide

theorem State.respond_rejected_idle (s : State) (h : s.seq = .idle) :
    s.respond .rejected 0 = { s with resp := s.resp ++ [0x40000000] } := by
  rw [State.respond_idle s _ _ h, responseWord_rejected_zero]

/-! ## The first phases of a missing decoder's commands -/

theorem decAttachFirst_missing (s : State) (k : DecIdx) (pb pa : Pin) (hk : validDecoder s.cfg k = false) :
    decAttachFirst k pb pa s = s.respond .rejected 0 := by
  simp only [decAttachFirst, hk, Bool.false_eq_true, if_false]

theorem decDetachFirst_missing (s : State) (k : DecIdx) (hk : validDecoder s.cfg k = false) :
    decDetachFirst k s = s.respond .rejected 0 := by
  simp only [decDetachFirst, hk, Bool.false_eq_true, if_false]

theorem decGetidBody_missing (s : State) (k : DecIdx) (hk : validDecoder s.cfg k = false) :
    decGetidBody k s = s.respond .rejected 0 := by
  simp only [decGetidBody, hk, Bool.false_eq_true, if_false]

end Sys2Proof.Machine

namespace Sys2Proof
open Machine

/-- Settles O35: on an idle port each of the three commands runs its first phase, which for a missing decoder is the
answer FALSE. -/
theorem missingDecoderIsAnsweredFalse : Obligations.MissingDecoderIsAnsweredFalse := by
  intro s k pa pb hidle hk
  have missing : validDecoder s.cfg k = false := (validDecoder_eq_false_iff s.cfg k).2 hk
  have answer := State.respond_rejected_idle s hidle
  refine ⟨?attach, ?detach, ?getid⟩
  case attach => rw [exec_decAttach_idle s k pb pa hidle, decAttachFirst_missing s k pb pa missing, answer]
  case detach => rw [exec_decDetach_idle s k hidle, decDetachFirst_missing s k missing, answer]
  case getid => rw [exec_decGetid_idle s k hidle, decGetidBody_missing s k missing, answer]

end Sys2Proof
end

section
/-! The row of the match and mask table that is REG.DETACH's (30_encoding.md R114), and what REG.DETACH does to a pin
with no registration (41_listener_registry.md R177, R178). -/

namespace Sys2Proof

/-! ## Decoding -/

/-- No word matches two rows that ask for different values of the bits both look at. -/
theorem rowMatches_eq_false_of_disjoint {w mask value mask' value' : Word} (hw : w &&& mask = value)
    (hne : value &&& mask' ≠ value' &&& mask) : rowMatches w mask' value' = false := by
  have other (h : w &&& mask' = value') : value &&& mask' = value' &&& mask := by
    rw [← hw, ← h, BitVec.and_assoc, BitVec.and_assoc, BitVec.and_comm mask mask']
  simpa [rowMatches] using fun h => hne (other h)

/-- The row of REG.DETACH; the only row tried before it, REG.ATTACH's, asks for another OP (R114). -/
theorem decode_of_regDetach_row {w : Word} (hw : w &&& 0xFFFFFFE0 = 0x20000000) :
    decode (.command w) = .ok (.regDetach (paField w)) := by
  have notAttach : rowMatches w 0xFFFF0FE0 0x10000000 = false :=
    rowMatches_eq_false_of_disjoint hw (by decide)
  have detach : rowMatches w 0xFFFFFFE0 0x20000000 = true := beq_iff_eq.2 hw
  simp only [decode, decodeCommand, notAttach, detach, Bool.false_eq_true, if_false, if_true]

namespace Machine

/-! ## Writing back the value a register holds -/

theorem State.setLvalid_self {s : State} {p : Pin} {v : Bool} (h : s.lvalidAt p = v) : s.setLvalid p v = s := by
  simp [← h, State.setLvalid, State.lvalidAt]

theorem State.setListener_self {s : State} {p : Pin} {v : Handle} (h : s.listenerAt p = v) : s.setListener p v = s := by
  simp [← h, State.setListener, State.listenerAt]

theorem State.setMask_self {s : State} {b : Bank} {v : Byte} (h : s.maskAt b = v) : s.setMask b v = s := by
  simp [← h, State.setMask, State.maskAt]

theorem State.setTrigEn_self {s : State} {b : Bank} {v : Bool} (h : s.trigEnAt b = v) : s.setTrigEn b v = s := by
  simp [← h, State.setTrigEn, State.trigEnAt]

/-! ## Removing what is not there -/

/-- Clearing a mask bit that is 0 changes nothing: by INV2 the trigger of an empty bank is disabled already. -/
theorem State.deactivate_of_bit_clear {s : State} {b : Bank} {i : Nat} (hi : i < 8)
    (hbit : (s.maskAt b).getLsbD i = false) (hen : EnabledIffActive s) : s.deactivate b i = s := by
  have enable : s.trigEnAt b = if s.maskAt b = 0 then false else s.trigEnAt b := by
    split
    case isTrue empty => simp [hen b, empty]
    case isFalse => rfl
  rw [State.deactivate_eq, clearBit_of_bit_clear _ _ hi hbit, State.setMask_self rfl, ← enable, State.setTrigEn_self rfl]

/-- Every element REG_DETACH_BODY would write already holds the value it writes (R177). -/
theorem State.detachBody_unregistered {s : State} {p : Pin} (hs : Inv s) (hfree : s.lvalidAt p = false) :
    s.detachBody p = s := by
  cases hp : validPin s.cfg p
  case false => exact State.detachBody_invalid s p hp
  case true =>
    have bitClear : (s.maskAt (bankOf s.cfg p)).getLsbD (bitOf s.cfg p) = false :=
      (hs.mask_matches_table p hp).symm.trans hfree
    rw [State.detachBody, if_pos hp, State.setLvalid_self hfree,
      State.setListener_self (hs.empty_entry_is_zero p hfree),
      State.deactivate_of_bit_clear (bitOf_lt_eight s.cfg p hp) bitClear hs.enabled_iff_active]

/-! ## REG.DETACH on an idle port -/

/-- The response word of OK without data (R118). -/
theorem responseWord_ok_zero : responseWord .ok 0 = 0x00000000 := by decide

/-- REG.DETACH is its body and the answer OK, whatever the pin (R178). -/
theorem exec_regDetach_idle (s : State) (p : Pin) (h : s.seq = .idle) :
    exec (.regDetach p) s = .next { s.detachBody p with resp := s.resp ++ [0x00000000] } := by
  have body : exec (.regDetach p) s = .next ((s.detachBody p).respond .ok 0) :=
    congrArg Host.Outcome.next (State.onIdle_idle s _ h)
  have idle : (s.detachBody p).seq = .idle := (State.detachBody_seq s p).trans h
  rw [body, State.respond_idle _ _ _ idle, State.detachBody_resp, responseWord_ok_zero]

end Machine

open Machine

/-- Settles O19: the word's row in the table of R114, and REG_DETACH_BODY at an invalid and at a valid index. -/
theorem regDetachRemovesRegistration : Obligations.RegDetachRemovesRegistration := by
  refine ⟨fun w => decode_of_regDetach_row, fun s p hidle => ⟨fun hout => ?invalid, fun hin => ?valid⟩⟩
  case invalid =>
    have invalid : validPin s.cfg p = false := decide_eq_false (Nat.not_lt.2 hout)
    rw [exec_regDetach_idle s p hidle, State.detachBody_invalid s p invalid]
  case valid =>
    have valid : validPin s.cfg p = true := (validPin_iff s.cfg p).2 hin
    rw [exec_regDetach_idle s p hidle, State.detachBody_valid s p valid]
    rfl

/-- Settles O20: REG_DETACH_BODY changes nothing at such an index, which leaves the answer. -/
theorem regDetachOfUnregisteredPinIsNoOp : Obligations.RegDetachOfUnregisteredPinIsNoOp := by
  intro s p hs hidle hfree
  rw [exec_regDetach_idle s p hidle, State.detachBody_unregistered hs hfree]

end Sys2Proof
end

section
/-! DEC.GETID: its row of the match and mask table (30_encoding.md R114), the word it answers, and what it does to an
existing decoder (42_wiegand_decoder.md R222). -/

namespace Sys2Proof

/-- The row of DEC.GETID; each of the four rows tried before it asks for another OP (R114). -/
theorem decode_of_decGetid_row {w : Word} (hw : w &&& 0xFFFF8FFF = 0x50000000) :
    decode (.command w) = .ok (.decGetid (decoderField w)) := by
  have notRegAttach : rowMatches w 0xFFFF0FE0 0x10000000 = false :=
    rowMatches_eq_false_of_disjoint hw (by decide)
  have notRegDetach : rowMatches w 0xFFFFFFE0 0x20000000 = false :=
    rowMatches_eq_false_of_disjoint hw (by decide)
  have notDecAttach : rowMatches w 0xFFFF8C00 0x30000000 = false :=
    rowMatches_eq_false_of_disjoint hw (by decide)
  have notDecDetach : rowMatches w 0xFFFF8FFF 0x40000000 = false :=
    rowMatches_eq_false_of_disjoint hw (by decide)
  have getid : rowMatches w 0xFFFF8FFF 0x50000000 = true := beq_iff_eq.2 hw
  simp only [decode, decodeCommand, notRegAttach, notRegDetach, notDecAttach, notDecDetach, getid,
    Bool.false_eq_true, if_false, if_true]

namespace Machine

theorem validDecoder_iff (c : Config) (k : DecIdx) : validDecoder c k = true ↔ k.toNat < c.numDec := by
  simp [validDecoder]

/-- The response word of OK is its data, below six bits that are 0 (R118). -/
theorem responseWord_ok (data : BitVec 26) : responseWord .ok data = 0#6 ++ data := rfl

/-- The 26 bits of DATA that DEC.GETID answers: 0 for a stale credential, and otherwise CRED (R222). -/
theorem Decoder.fetched_data (d : Decoder) (tSt now : Time) :
    (d.fetched tSt now).setWidth 26 = if tSt < now - d.tcred then 0#26 else d.cred.extractLsb' 0 26 := by
  by_cases stale : tSt < now - d.tcred
  · simp [Decoder.fetched, exceeds, elapsed, stale]
  · simp [Decoder.fetched, exceeds, elapsed, stale, BitVec.setWidth_eq_extractLsb']

theorem decGetidBody_existing (s : State) (k : DecIdx) (hk : validDecoder s.cfg k = true) :
    decGetidBody k s =
      (s.setDec k (s.decAt k).resetCompleted).respond .ok (((s.decAt k).fetched s.cfg.tSt s.now).setWidth 26) :=
  if_pos hk

end Machine

open Machine

/-- Settles O36: the word's row in the table of R114; a missing decoder's answer is that of R116, and an existing one
loses CRED and is answered what it held. -/
theorem getidReturnsAndConsumes : Obligations.GetidReturnsAndConsumes := by
  refine ⟨fun w => decode_of_decGetid_row, fun s k hidle => ⟨fun hout => ?missing, fun hin => ?existing⟩⟩
  case missing =>
    have missing : validDecoder s.cfg k = false := (validDecoder_eq_false_iff s.cfg k).2 hout
    rw [exec_decGetid_idle s k hidle, decGetidBody_missing s k missing, State.respond_rejected_idle s hidle]
  case existing =>
    have existing : validDecoder s.cfg k = true := (validDecoder_iff s.cfg k).2 hin
    have idle : (s.setDec k (s.decAt k).resetCompleted).seq = .idle := hidle
    rw [exec_decGetid_idle s k hidle, decGetidBody_existing s k existing, State.respond_idle _ _ _ idle,
      Decoder.fetched_data, responseWord_ok]
    rfl

end Sys2Proof
end

section
/-! What writes PULLUP: phase A4 of DEC.ATTACH alone, and only to 1 (42_wiegand_decoder.md R208, R214). -/

namespace Sys2Proof.Machine

/-! ## Operations that leave every pull-up -/

theorem State.begin_pullup (s : State) (cmd : Fetched) (ph : Phase) : (s.begin cmd ph).pullup = s.pullup := by
  cases cmd <;> rfl

theorem State.rejectFetched_pullup (s : State) (f : Fetched) : (s.rejectFetched f).pullup = s.pullup := by
  cases f <;> rfl

theorem State.admitTrigger_trig_pullup (s : State) (b : Bank) : (s.admitTrigger b (State.trig b)).pullup = s.pullup := by
  unfold State.admitTrigger
  split
  · obtain ⟨d, e, a, h⟩ := s.trig_frame b
    rw [h]
  · rfl

/-- What the environment writes between two steps is no pull-up (R49, R50). -/
theorem State.sameBut.pullup_eq {s t : State} (h : s.sameBut t) : t.pullup = s.pullup := by
  rw [h]

/-! ## The commands on the port -/

theorem State.onIdle_cases (s : State) (run : State → State) : s.onIdle run = s ∨ s.onIdle run = run s := by
  cases h : s.seq with
  | idle => exact .inr (s.onIdle_idle run h)
  | busy c => exact .inl (s.onIdle_busy run c h)

/-- A multi-phase command is held, or runs its first phase, or its next one (R48, R90, R91). -/
theorem State.onPort_cases (s : State) (cmd : Fetched) (first : State → State) (next : Command → State → State) :
    s.onPort cmd first next = s ∨ s.onPort cmd first next = first s ∨
      ∃ c, s.seq = .busy c ∧ s.onPort cmd first next = next c s := by
  cases h : s.seq with
  | idle => exact .inr (.inl (s.onPort_idle cmd first next h))
  | busy c =>
    by_cases own : cmd = .command c.cmd
    · exact .inr (.inr ⟨c, rfl, s.onPort_own cmd first next c h own⟩)
    · exact .inl (s.onPort_held cmd first next c h own)

theorem State.onIdle_pullup (s : State) (run : State → State) (hrun : (run s).pullup = s.pullup) :
    (s.onIdle run).pullup = s.pullup := by
  obtain h | h := s.onIdle_cases run
  · rw [h]
  · rw [h, hrun]

theorem regAttachBody_pullup (h : Handle) (p : Pin) (s : State) : (regAttachBody h p s).pullup = s.pullup := by
  unfold regAttachBody
  split <;> simp

theorem regDetachBody_pullup (p : Pin) (s : State) : (regDetachBody p s).pullup = s.pullup := by
  simp [regDetachBody]

theorem decGetidBody_pullup (k : DecIdx) (s : State) : (decGetidBody k s).pullup = s.pullup := by
  unfold decGetidBody
  split <;> simp

theorem decAttachFirst_pullup (k : DecIdx) (pb pa : Pin) (s : State) :
    (decAttachFirst k pb pa s).pullup = s.pullup := by
  unfold decAttachFirst
  split
  · exact s.begin_pullup _ _
  · simp

theorem decDetachFirst_pullup (k : DecIdx) (s : State) : (decDetachFirst k s).pullup = s.pullup := by
  unfold decDetachFirst
  split
  · exact s.begin_pullup _ _
  · simp

theorem decDetachNext_pullup (k : DecIdx) (c : Command) (s : State) : (decDetachNext k c s).pullup = s.pullup := by
  unfold decDetachNext
  split <;> simp [State.unbindDecoder]

/-- Phase A4 pulls the two pins up; the other phases of DEC.ATTACH leave every pull-up (R208). -/
theorem decAttachNext_pullup (k : DecIdx) (pb pa : Pin) (c : Command) (s : State) :
    (decAttachNext k pb pa c s).pullup =
      if c.phase = .a4 then ((s.pullUp pa).pullUp pb).pullup else s.pullup := by
  unfold decAttachNext
  cases c.phase <;> simp [State.unbindDecoder, State.bindDecoder, State.resetDecoder, apply_ite State.pullup]

/-- DEC.DETACH leaves every pull-up, in each of its phases and while it is held (R214). -/
theorem exec_decDetach_pullup (s : State) (k : DecIdx) : ∃ t, exec (.decDetach k) s = .next t ∧ t.pullup = s.pullup := by
  refine ⟨_, rfl, ?_⟩
  obtain h | h | ⟨c, -, h⟩ := s.onPort_cases (encode (.decDetach k)) (decDetachFirst k) (decDetachNext k)
  · rw [h]
  · rw [h, decDetachFirst_pullup]
  · rw [h, decDetachNext_pullup]

/-- Everything an instruction can do to PULLUP: nothing, or what phase A4 of DEC.ATTACH does (R208, R214). -/
theorem exec_pullup_cases {i : Instr} {s t : State} (h : exec i s = .next t) :
    t.pullup = s.pullup ∨ ∃ pa pb, t.pullup = ((s.pullUp pa).pullUp pb).pullup := by
  cases i with
  | regAttach hd pa => cases h; exact .inl (s.onIdle_pullup _ (regAttachBody_pullup hd pa s))
  | regDetach pa => cases h; exact .inl (s.onIdle_pullup _ (regDetachBody_pullup pa s))
  | decGetid k => cases h; exact .inl (s.onIdle_pullup _ (decGetidBody_pullup k s))
  | decDetach k =>
    obtain ⟨u, hu, kept⟩ := exec_decDetach_pullup s k
    cases hu.symm.trans h
    exact .inl kept
  | trig0 => cases h; exact .inl (s.admitTrigger_trig_pullup 0)
  | trig1 => cases h; exact .inl (s.admitTrigger_trig_pullup 1)
  | trig2 => cases h; exact .inl (s.admitTrigger_trig_pullup 2)
  | decAttach k pb pa =>
    cases h
    obtain h | h | ⟨c, -, h⟩ :=
      s.onPort_cases (encode (.decAttach k pb pa)) (decAttachFirst k pb pa) (decAttachNext k pb pa)
    · exact .inl (by rw [h])
    · exact .inl (by rw [h, decAttachFirst_pullup])
    · rw [h, decAttachNext_pullup]
      split
      · exact .inr ⟨pa, pb, rfl⟩
      · exact .inl rfl

/-! ## A pull-up that is on stays on -/

theorem State.pullupAt_congr {s t : State} (h : t.pullup = s.pullup) (p : Pin) : t.pullupAt p = s.pullupAt p := by
  rw [State.pullupAt, h, State.pullupAt]

theorem State.pullUp_keeps_pullups {s : State} {p : Pin} (q : Pin) (hp : s.pullupAt p = true) :
    (s.pullUp q).pullupAt p = true := by
  unfold State.pullUp
  split
  · simp [hp]
  · exact hp

theorem exec_keeps_pullups {i : Instr} {s t : State} {p : Pin} (h : exec i s = .next t) (hp : s.pullupAt p = true) :
    t.pullupAt p = true := by
  obtain kept | ⟨pa, pb, raised⟩ := exec_pullup_cases h
  · rw [State.pullupAt_congr kept, hp]
  · rw [State.pullupAt_congr raised]
    exact State.pullUp_keeps_pullups pb (State.pullUp_keeps_pullups pa hp)

theorem step_keeps_pullups {s t : State} {p : Pin} (h : step s = .next t) (hp : s.pullupAt p = true) :
    t.pullupAt p = true := by
  obtain ⟨-, outside | ⟨f, u, same, taken⟩⟩ := step_next_cases h
  · rw [State.pullupAt_congr outside.pullup_eq, hp]
  · have hu : u.pullupAt p = true := (State.pullupAt_congr same.pullup_eq p).trans hp
    obtain ⟨i, -, run⟩ | ⟨-, rfl⟩ := taken
    · exact exec_keeps_pullups run hu
    · rw [State.pullupAt_congr (u.rejectFetched_pullup f), hu]

end Sys2Proof.Machine

namespace Sys2Proof
open Machine

/-- Settles O45: what a step can be, and that only phase A4 of DEC.ATTACH writes PULLUP, to 1. -/
theorem pullupsAreNeverCleared : Obligations.PullupsAreNeverCleared :=
  ⟨fun _ _ _ => step_keeps_pullups, exec_decDetach_pullup⟩

end Sys2Proof
end

section
/-! The encoding (30_encoding.md R111 to R124). A word is its six fields, masking and joining words act field by field,
and so a word decodes to exactly the instruction whose fields it has. -/

namespace Sys2Proof

/-! ## A word and its fields -/

/-- A word is its fields, from OP down (R111). -/
theorem word_eq_fields (w : Word) :
    w = (commandFields w).op ++ ((commandFields w).rsv1 ++ ((commandFields w).hk ++ ((commandFields w).rsv2 ++
      ((commandFields w).pb ++ (commandFields w).pa)))) := by
  have lowest : w.extractLsb' 5 5 ++ w.extractLsb' 0 5 = w.extractLsb' 0 10 :=
    BitVec.extractLsb'_append_extractLsb'_eq_extractLsb' rfl
  have fromRsv2 : w.extractLsb' 10 2 ++ w.extractLsb' 0 10 = w.extractLsb' 0 12 :=
    BitVec.extractLsb'_append_extractLsb'_eq_extractLsb' rfl
  have fromHk : w.extractLsb' 12 4 ++ w.extractLsb' 0 12 = w.extractLsb' 0 16 :=
    BitVec.extractLsb'_append_extractLsb'_eq_extractLsb' rfl
  have fromRsv1 : w.extractLsb' 16 12 ++ w.extractLsb' 0 16 = w.extractLsb' 0 28 :=
    BitVec.extractLsb'_append_extractLsb'_eq_extractLsb' rfl
  have fromOp : w.extractLsb' 28 4 ++ w.extractLsb' 0 28 = w.extractLsb' 0 32 :=
    BitVec.extractLsb'_append_extractLsb'_eq_extractLsb' rfl
  simp only [commandFields, opField, handleField, pbField, paField, lowest, fromRsv2, fromHk, fromRsv1, fromOp]
  exact (BitVec.extractLsb'_eq_self (x := w)).symm

theorem commandFields_injective {w w' : Word} (h : commandFields w = commandFields w') : w = w' := by
  rw [word_eq_fields w, word_eq_fields w', h]

/-- Fields joined bit by bit, each with its counterpart. -/
def CommandFields.or (f g : CommandFields) : CommandFields where
  op := f.op ||| g.op
  rsv1 := f.rsv1 ||| g.rsv1
  hk := f.hk ||| g.hk
  rsv2 := f.rsv2 ||| g.rsv2
  pb := f.pb ||| g.pb
  pa := f.pa ||| g.pa

/-- Fields masked bit by bit, each with its counterpart. -/
def CommandFields.and (f g : CommandFields) : CommandFields where
  op := f.op &&& g.op
  rsv1 := f.rsv1 &&& g.rsv1
  hk := f.hk &&& g.hk
  rsv2 := f.rsv2 &&& g.rsv2
  pb := f.pb &&& g.pb
  pa := f.pa &&& g.pa

theorem commandFields_or (v w : Word) : commandFields (v ||| w) = (commandFields v).or (commandFields w) := by
  simp only [commandFields, CommandFields.or, opField, handleField, pbField, paField, BitVec.extractLsb'_or]

theorem commandFields_and (v w : Word) : commandFields (v &&& w) = (commandFields v).and (commandFields w) := by
  simp only [commandFields, CommandFields.and, opField, handleField, pbField, paField, BitVec.extractLsb'_and]

/-! ## The forms of the assembler -/

theorem commandFields_handle : ∀ h : Handle, commandFields (h.setWidth 32 <<< 12) = ⟨0, 0, h, 0, 0, 0⟩ := by decide

theorem commandFields_decoder :
    ∀ k : DecIdx, commandFields (k.setWidth 32 <<< 12) = ⟨0, 0, k.setWidth 4, 0, 0, 0⟩ := by decide

theorem commandFields_pb : ∀ p : Pin, commandFields (p.setWidth 32 <<< 5) = ⟨0, 0, 0, 0, p, 0⟩ := by decide

theorem commandFields_pa : ∀ p : Pin, commandFields (p.setWidth 32) = ⟨0, 0, 0, 0, 0, p⟩ := by decide

/-- An opcode alone. -/
theorem commandFields_opcodes :
    commandFields 0x10000000#32 = ⟨1, 0, 0, 0, 0, 0⟩ ∧ commandFields 0x20000000#32 = ⟨2, 0, 0, 0, 0, 0⟩ ∧
      commandFields 0x30000000#32 = ⟨3, 0, 0, 0, 0, 0⟩ ∧ commandFields 0x40000000#32 = ⟨4, 0, 0, 0, 0, 0⟩ ∧
      commandFields 0x50000000#32 = ⟨5, 0, 0, 0, 0, 0⟩ := by decide

/-- The word of a command has the command's fields (R113, R124). -/
theorem fields_of_encode {i : Instr} {w : Word} (h : encode i = .command w) : i.fields = some (commandFields w) := by
  obtain ⟨op1, op2, op3, op4, op5⟩ := commandFields_opcodes
  cases i with
  | regAttach hd pa =>
    cases h
    simp [Instr.fields, commandFields_or, op1, commandFields_handle, commandFields_pa, CommandFields.or]
  | regDetach pa =>
    cases h
    simp [Instr.fields, commandFields_or, op2, commandFields_pa, CommandFields.or]
  | decAttach k pb pa =>
    cases h
    simp [Instr.fields, commandFields_or, op3, commandFields_decoder, commandFields_pb, commandFields_pa,
      CommandFields.or]
  | decDetach k =>
    cases h
    simp [Instr.fields, commandFields_or, op4, commandFields_decoder, CommandFields.or]
  | decGetid k =>
    cases h
    simp [Instr.fields, commandFields_or, op5, commandFields_decoder, CommandFields.or]
  | trig0 => cases h
  | trig1 => cases h
  | trig2 => cases h

/-- Every instruction but a trigger is encoded as a command word (R113, R120). -/
theorem encode_of_fields {i : Instr} {f : CommandFields} (h : i.fields = some f) : ∃ w, encode i = .command w := by
  cases i with
  | regAttach hd pa => exact ⟨_, rfl⟩
  | regDetach pa => exact ⟨_, rfl⟩
  | decAttach k pb pa => exact ⟨_, rfl⟩
  | decDetach k => exact ⟨_, rfl⟩
  | decGetid k => exact ⟨_, rfl⟩
  | trig0 => cases h
  | trig1 => cases h
  | trig2 => cases h

/-- The command whose fields a word has is encoded as that word. -/
theorem encode_of_fields_eq {i : Instr} {w : Word} (h : i.fields = some (commandFields w)) : encode i = .command w := by
  obtain ⟨w', hw'⟩ := encode_of_fields h
  have same : commandFields w' = commandFields w := Option.some.inj ((fields_of_encode hw').symm.trans h)
  rw [hw', commandFields_injective same]

/-! ## The rows of the match and mask table, in fields -/

/-- A row of R114 asks of each field on its own; a field that the row does not look at is 0 in its mask and value. -/
theorem rowMatches_iff_fields (w mask value : Word) (m v : CommandFields) (hm : commandFields mask = m)
    (hv : commandFields value = v) :
    rowMatches w mask value = true ↔
      (commandFields w).op &&& m.op = v.op ∧ (commandFields w).rsv1 &&& m.rsv1 = v.rsv1 ∧
        (commandFields w).hk &&& m.hk = v.hk ∧ (commandFields w).rsv2 &&& m.rsv2 = v.rsv2 ∧
        (commandFields w).pb &&& m.pb = v.pb ∧ (commandFields w).pa &&& m.pa = v.pa := by
  have masked : w &&& mask = value ↔ (commandFields w).and m = v := by
    rw [← hm, ← hv, ← commandFields_and]
    exact ⟨fun h => by rw [h], commandFields_injective⟩
  rw [rowMatches, beq_iff_eq, masked]
  cases v
  simp only [CommandFields.and, CommandFields.mk.injEq]

theorem rowMatches_regAttach (w : Word) :
    rowMatches w 0xFFFF0FE0 0x10000000 = true ↔
      (commandFields w).op = 1#4 ∧ (commandFields w).rsv1 = 0#12 ∧ (commandFields w).rsv2 = 0#2 ∧
        (commandFields w).pb = 0#5 := by
  have row := rowMatches_iff_fields w 0xFFFF0FE0 0x10000000 ⟨.allOnes 4, .allOnes 12, 0#4, .allOnes 2, .allOnes 5, 0#5⟩
    ⟨1#4, 0#12, 0#4, 0#2, 0#5, 0#5⟩ (by decide) (by decide)
  simpa only [BitVec.and_allOnes, BitVec.and_zero, true_and, and_true] using row

theorem rowMatches_regDetach (w : Word) :
    rowMatches w 0xFFFFFFE0 0x20000000 = true ↔
      (commandFields w).op = 2#4 ∧ (commandFields w).rsv1 = 0#12 ∧ (commandFields w).hk = 0#4 ∧
        (commandFields w).rsv2 = 0#2 ∧ (commandFields w).pb = 0#5 := by
  have row := rowMatches_iff_fields w 0xFFFFFFE0 0x20000000
    ⟨.allOnes 4, .allOnes 12, .allOnes 4, .allOnes 2, .allOnes 5, 0#5⟩ ⟨2#4, 0#12, 0#4, 0#2, 0#5, 0#5⟩ (by decide)
    (by decide)
  simpa only [BitVec.and_allOnes, BitVec.and_zero, and_true] using row

theorem rowMatches_decAttach (w : Word) :
    rowMatches w 0xFFFF8C00 0x30000000 = true ↔
      (commandFields w).op = 3#4 ∧ (commandFields w).rsv1 = 0#12 ∧ (commandFields w).hk &&& 8#4 = 0#4 ∧
        (commandFields w).rsv2 = 0#2 := by
  have row := rowMatches_iff_fields w 0xFFFF8C00 0x30000000 ⟨.allOnes 4, .allOnes 12, 8#4, .allOnes 2, 0#5, 0#5⟩
    ⟨3#4, 0#12, 0#4, 0#2, 0#5, 0#5⟩ (by decide) (by decide)
  simpa only [BitVec.and_allOnes, BitVec.and_zero, and_true] using row

/-- The rows of DEC.DETACH and DEC.GETID differ in the opcode alone. -/
theorem rowMatches_pinless (w value : Word) (op : BitVec 4) (hv : commandFields value = ⟨op, 0#12, 0#4, 0#2, 0#5, 0#5⟩) :
    rowMatches w 0xFFFF8FFF value = true ↔
      (commandFields w).op = op ∧ (commandFields w).rsv1 = 0#12 ∧ (commandFields w).hk &&& 8#4 = 0#4 ∧
        (commandFields w).rsv2 = 0#2 ∧ (commandFields w).pb = 0#5 ∧ (commandFields w).pa = 0#5 := by
  have row := rowMatches_iff_fields w 0xFFFF8FFF value
    ⟨.allOnes 4, .allOnes 12, 8#4, .allOnes 2, .allOnes 5, .allOnes 5⟩ _ (by decide) hv
  simpa only [BitVec.and_allOnes] using row

theorem rowMatches_decDetach (w : Word) :
    rowMatches w 0xFFFF8FFF 0x40000000 = true ↔
      (commandFields w).op = 4#4 ∧ (commandFields w).rsv1 = 0#12 ∧ (commandFields w).hk &&& 8#4 = 0#4 ∧
        (commandFields w).rsv2 = 0#2 ∧ (commandFields w).pb = 0#5 ∧ (commandFields w).pa = 0#5 :=
  rowMatches_pinless w 0x40000000 4#4 (by decide)

theorem rowMatches_decGetid (w : Word) :
    rowMatches w 0xFFFF8FFF 0x50000000 = true ↔
      (commandFields w).op = 5#4 ∧ (commandFields w).rsv1 = 0#12 ∧ (commandFields w).hk &&& 8#4 = 0#4 ∧
        (commandFields w).rsv2 = 0#2 ∧ (commandFields w).pb = 0#5 ∧ (commandFields w).pa = 0#5 :=
  rowMatches_pinless w 0x50000000 5#4 (by decide)

/-! ## The rows not yet decoded -/

/-- The row of REG.ATTACH, the first one tried (R114). -/
theorem decode_of_regAttach_row {w : Word} (hw : w &&& 0xFFFF0FE0 = 0x10000000) :
    decode (.command w) = .ok (.regAttach (handleField w) (paField w)) := by
  have attach : rowMatches w 0xFFFF0FE0 0x10000000 = true := beq_iff_eq.2 hw
  simp only [decode, decodeCommand, attach, if_true]

/-- The row of DEC.ATTACH; the two rows tried before it ask for another OP (R114). -/
theorem decode_of_decAttach_row {w : Word} (hw : w &&& 0xFFFF8C00 = 0x30000000) :
    decode (.command w) = .ok (.decAttach (decoderField w) (pbField w) (paField w)) := by
  have notRegAttach : rowMatches w 0xFFFF0FE0 0x10000000 = false := rowMatches_eq_false_of_disjoint hw (by decide)
  have notRegDetach : rowMatches w 0xFFFFFFE0 0x20000000 = false := rowMatches_eq_false_of_disjoint hw (by decide)
  have attach : rowMatches w 0xFFFF8C00 0x30000000 = true := beq_iff_eq.2 hw
  simp only [decode, decodeCommand, notRegAttach, notRegDetach, attach, Bool.false_eq_true, if_false, if_true]

/-- The row of DEC.DETACH; the three rows tried before it ask for another OP (R114). -/
theorem decode_of_decDetach_row {w : Word} (hw : w &&& 0xFFFF8FFF = 0x40000000) :
    decode (.command w) = .ok (.decDetach (decoderField w)) := by
  have notRegAttach : rowMatches w 0xFFFF0FE0 0x10000000 = false := rowMatches_eq_false_of_disjoint hw (by decide)
  have notRegDetach : rowMatches w 0xFFFFFFE0 0x20000000 = false := rowMatches_eq_false_of_disjoint hw (by decide)
  have notDecAttach : rowMatches w 0xFFFF8C00 0x30000000 = false := rowMatches_eq_false_of_disjoint hw (by decide)
  have detach : rowMatches w 0xFFFF8FFF 0x40000000 = true := beq_iff_eq.2 hw
  simp only [decode, decodeCommand, notRegAttach, notRegDetach, notDecAttach, detach, Bool.false_eq_true, if_false,
    if_true]

/-! ## A word decodes to the instruction whose fields it has -/

/-- Below bit 3 of HK stands the decoder index K (R112). -/
theorem decoderField_eq (w : Word) : decoderField w = (commandFields w).hk.setWidth 3 := by
  apply BitVec.eq_of_getLsbD_eq
  intro i hi
  have low : i < 4 := by omega
  simp [decoderField, commandFields, handleField, hi, low]

/-- A HK whose bit 3 is clear is its decoder index (R113). -/
theorem hk_of_decoder : ∀ hk : BitVec 4, hk &&& 8#4 = 0#4 → (hk.setWidth 3).setWidth 4 = hk := by decide

theorem decoder_of_hk : ∀ k : DecIdx, (k.setWidth 4).setWidth 3 = k ∧ k.setWidth 4 &&& 8#4 = 0#4 := by decide

theorem hk_of_decoderField {w : Word} (h : (commandFields w).hk &&& 8#4 = 0#4) :
    (commandFields w).hk = (decoderField w).setWidth 4 := by
  rw [decoderField_eq, hk_of_decoder _ h]

theorem decoderField_of_hk {w : Word} {k : DecIdx} (h : (commandFields w).hk = k.setWidth 4) :
    decoderField w = k ∧ (commandFields w).hk &&& 8#4 = 0#4 := by
  rw [decoderField_eq, h]
  exact decoder_of_hk k

/-- Fields are equal when they agree one by one. -/
theorem CommandFields.mk_eq_iff {f : CommandFields} {op : BitVec 4} {rsv1 : BitVec 12} {hk : BitVec 4}
    {rsv2 : BitVec 2} {pb pa : Pin} :
    some (CommandFields.mk op rsv1 hk rsv2 pb pa) = some f ↔
      f.op = op ∧ f.rsv1 = rsv1 ∧ f.hk = hk ∧ f.rsv2 = rsv2 ∧ f.pb = pb ∧ f.pa = pa := by
  cases f
  simp only [Option.some.injEq, CommandFields.mk.injEq, eq_comm]

/-- What a word decodes to has the word's fields, row by row (R113, R114). -/
theorem fields_of_decode {w : Word} {i : Instr} (h : decode (.command w) = .ok i) : i.fields = some (commandFields w) := by
  simp only [decode, decodeCommand] at h
  split at h
  case isTrue row =>
    obtain ⟨op, rsv1, rsv2, pb⟩ := (rowMatches_regAttach w).1 row
    cases h
    exact CommandFields.mk_eq_iff.2 ⟨op, rsv1, rfl, rsv2, pb, rfl⟩
  split at h
  case isTrue row =>
    obtain ⟨op, rsv1, hk, rsv2, pb⟩ := (rowMatches_regDetach w).1 row
    cases h
    exact CommandFields.mk_eq_iff.2 ⟨op, rsv1, hk, rsv2, pb, rfl⟩
  split at h
  case isTrue row =>
    obtain ⟨op, rsv1, hk, rsv2⟩ := (rowMatches_decAttach w).1 row
    cases h
    exact CommandFields.mk_eq_iff.2 ⟨op, rsv1, hk_of_decoderField hk, rsv2, rfl, rfl⟩
  split at h
  case isTrue row =>
    obtain ⟨op, rsv1, hk, rsv2, pb, pa⟩ := (rowMatches_decDetach w).1 row
    cases h
    exact CommandFields.mk_eq_iff.2 ⟨op, rsv1, hk_of_decoderField hk, rsv2, pb, pa⟩
  split at h
  case isTrue row =>
    obtain ⟨op, rsv1, hk, rsv2, pb, pa⟩ := (rowMatches_decGetid w).1 row
    cases h
    exact CommandFields.mk_eq_iff.2 ⟨op, rsv1, hk_of_decoderField hk, rsv2, pb, pa⟩
  split at h <;> cases h

/-- A word with the fields of a command is in that command's row, and the row reads the operands back (R113, R114). -/
theorem decode_of_fields {w : Word} {i : Instr} (h : i.fields = some (commandFields w)) : decode (.command w) = .ok i := by
  cases i with
  | regAttach hd pa =>
    obtain ⟨op, rsv1, hk, rsv2, pb, hpa⟩ := CommandFields.mk_eq_iff.1 h
    have row := (rowMatches_regAttach w).2 ⟨op, rsv1, rsv2, pb⟩
    rw [decode_of_regAttach_row (beq_iff_eq.1 row), ← hk, ← hpa]
    rfl
  | regDetach pa =>
    obtain ⟨op, rsv1, hk, rsv2, pb, hpa⟩ := CommandFields.mk_eq_iff.1 h
    have row := (rowMatches_regDetach w).2 ⟨op, rsv1, hk, rsv2, pb⟩
    rw [decode_of_regDetach_row (beq_iff_eq.1 row), ← hpa]
    rfl
  | decAttach k pb pa =>
    obtain ⟨op, rsv1, hk, rsv2, hpb, hpa⟩ := CommandFields.mk_eq_iff.1 h
    obtain ⟨index, legal⟩ := decoderField_of_hk hk
    have row := (rowMatches_decAttach w).2 ⟨op, rsv1, legal, rsv2⟩
    rw [decode_of_decAttach_row (beq_iff_eq.1 row), index, ← hpb, ← hpa]
    rfl
  | decDetach k =>
    obtain ⟨op, rsv1, hk, rsv2, pb, pa⟩ := CommandFields.mk_eq_iff.1 h
    obtain ⟨index, legal⟩ := decoderField_of_hk hk
    have row := (rowMatches_decDetach w).2 ⟨op, rsv1, legal, rsv2, pb, pa⟩
    rw [decode_of_decDetach_row (beq_iff_eq.1 row), index]
  | decGetid k =>
    obtain ⟨op, rsv1, hk, rsv2, pb, pa⟩ := CommandFields.mk_eq_iff.1 h
    obtain ⟨index, legal⟩ := decoderField_of_hk hk
    have row := (rowMatches_decGetid w).2 ⟨op, rsv1, legal, rsv2, pb, pa⟩
    rw [decode_of_decGetid_row (beq_iff_eq.1 row), index]
  | trig0 => cases h
  | trig1 => cases h
  | trig2 => cases h

theorem decode_command_iff {w : Word} {i : Instr} : decode (.command w) = .ok i ↔ i.fields = some (commandFields w) :=
  ⟨fields_of_decode, decode_of_fields⟩

/-- The encoding and the decoder say the same of which word is which command. -/
theorem encode_command_iff {w : Word} {i : Instr} : encode i = .command w ↔ decode (.command w) = .ok i :=
  ⟨fun h => decode_of_fields (fields_of_encode h), fun h => encode_of_fields_eq (fields_of_decode h)⟩

/-! ## Legal words -/

/-- Every operation's fields are legal, whatever its operands (R113). -/
theorem Instr.wellFormed_all (i : Instr) : i.wellFormed = true := by
  cases i with
  | regAttach h pa => exact Laws.FieldsAreLegal.regAttach h pa
  | regDetach pa => exact Laws.FieldsAreLegal.regDetach pa
  | decAttach k pb pa => exact Laws.FieldsAreLegal.decAttach k pb pa
  | decDetach k => exact Laws.FieldsAreLegal.decDetach k
  | decGetid k => exact Laws.FieldsAreLegal.decGetid k
  | trig0 => exact Laws.FieldsAreLegal.trig0
  | trig1 => exact Laws.FieldsAreLegal.trig1
  | trig2 => exact Laws.FieldsAreLegal.trig2

/-- Bit 15 clear makes HK a decoder index (R113). -/
theorem hk_of_bit15_clear : ∀ hk : BitVec 4, hk.getLsbD 3 = false → hk = (hk.setWidth 3).setWidth 4 := by decide

/-- Legal fields are the fields of a command: the one of their opcode, with the operands that they hold (R113). -/
theorem exists_instr_iff_wellFormed (f : CommandFields) : (∃ i : Instr, i.fields = some f) ↔ f.wellFormed = true := by
  constructor
  · rintro ⟨i, hi⟩
    have legal := i.wellFormed_all
    rwa [Instr.wellFormed, hi] at legal
  · intro legal
    obtain ⟨op, rsv1, hk, rsv2, pb, pa⟩ := f
    simp only [Laws.wellFormed_checks, Bool.and_eq_true, beq_iff_eq] at legal
    obtain ⟨⟨⟨⟨⟨assigned, rfl⟩, rfl⟩, hkLegal⟩, pbLegal⟩, paLegal⟩ := legal
    simp only [Bool.or_eq_true, beq_iff_eq] at assigned
    obtain (((rfl | rfl) | rfl) | rfl) | rfl := assigned
    · obtain rfl : pb = 0 := by simpa using pbLegal
      exact ⟨.regAttach hk pa, rfl⟩
    · obtain rfl : pb = 0 := by simpa using pbLegal
      obtain rfl : hk = 0 := by simpa using hkLegal
      exact ⟨.regDetach pa, rfl⟩
    · have decoder := hk_of_bit15_clear hk (by simpa using hkLegal)
      exact ⟨.decAttach (hk.setWidth 3) pb pa, by rw [Instr.fields, ← decoder]⟩
    · have decoder := hk_of_bit15_clear hk (by simpa using hkLegal)
      obtain rfl : pb = 0 := by simpa using pbLegal
      obtain rfl : pa = 0 := by simpa using paLegal
      exact ⟨.decDetach (hk.setWidth 3), by rw [Instr.fields, ← decoder]⟩
    · have decoder := hk_of_bit15_clear hk (by simpa using hkLegal)
      obtain rfl : pb = 0 := by simpa using pbLegal
      obtain rfl : pa = 0 := by simpa using paLegal
      exact ⟨.decGetid (hk.setWidth 3), by rw [Instr.fields, ← decoder]⟩

theorem exists_decode_iff_wellFormed (w : Word) :
    (∃ i, decode (.command w) = .ok i) ↔ (commandFields w).wellFormed = true := by
  simp only [decode_command_iff, exists_instr_iff_wellFormed]

/-- A word decodes exactly when it is in some row of R114. -/
theorem exists_decode_iff_row (w : Word) :
    (∃ i, decode (.command w) = .ok i) ↔
      w &&& 0xFFFF0FE0 = 0x10000000 ∨ w &&& 0xFFFFFFE0 = 0x20000000 ∨ w &&& 0xFFFF8C00 = 0x30000000 ∨
        w &&& 0xFFFF8FFF = 0x40000000 ∨ w &&& 0xFFFF8FFF = 0x50000000 := by
  constructor
  · rintro ⟨i, hi⟩
    simp only [decode, decodeCommand, rowMatches, beq_iff_eq] at hi
    split at hi
    case isTrue row => exact .inl row
    split at hi
    case isTrue row => exact .inr (.inl row)
    split at hi
    case isTrue row => exact .inr (.inr (.inl row))
    split at hi
    case isTrue row => exact .inr (.inr (.inr (.inl row)))
    split at hi
    case isTrue row => exact .inr (.inr (.inr (.inr row)))
    split at hi <;> cases hi
  · rintro (row | row | row | row | row)
    · exact ⟨_, decode_of_regAttach_row row⟩
    · exact ⟨_, decode_of_regDetach_row row⟩
    · exact ⟨_, decode_of_decAttach_row row⟩
    · exact ⟨_, decode_of_decDetach_row row⟩
    · exact ⟨_, decode_of_decGetid_row row⟩

/-- R115: the words in no row are the words with ill-formed fields. -/
theorem no_row_iff_illFormed (w : Word) :
    (w &&& 0xFFFF0FE0 ≠ 0x10000000 ∧ w &&& 0xFFFFFFE0 ≠ 0x20000000 ∧ w &&& 0xFFFF8C00 ≠ 0x30000000 ∧
      w &&& 0xFFFF8FFF ≠ 0x40000000 ∧ w &&& 0xFFFF8FFF ≠ 0x50000000) ↔ (commandFields w).wellFormed = false := by
  rw [← Bool.not_eq_true, ← exists_decode_iff_wellFormed, exists_decode_iff_row]
  simp only [not_or, ne_eq]

/-! ## The vector rows -/

theorem decode_vector_iff {v : BitVec 2} {i : Instr} : decode (.vector v) = .ok i ↔ encode i = .vector v := by
  constructor
  · intro h
    simp only [decode, decodeVector, beq_iff_eq] at h
    split at h
    case isTrue zero => cases h; rw [zero]; rfl
    split at h
    case isTrue one => cases h; rw [one]; rfl
    split at h
    case isTrue two => cases h; rw [two]; rfl
    cases h
  · intro h
    cases i <;> cases h <;> rfl

/-- Settles O1: a command's word has the command's fields, so it decodes to the command. -/
theorem decodeOfEncodeIsTheInstruction : Obligations.DecodeOfEncodeIsTheInstruction := by
  intro i _
  cases hi : encode i with
  | command w => exact encode_command_iff.1 hi
  | vector v => exact decode_vector_iff.2 hi

/-- Settles O2: what a word decodes to has the word's fields, and fields make the word. -/
theorem encodeOfDecodeIsTheWord : Obligations.EncodeOfDecodeIsTheWord := by
  intro f i h
  refine ⟨?_, i.wellFormed_all⟩
  cases f with
  | command w => exact encode_command_iff.2 h
  | vector v => exact decode_vector_iff.1 h

/-- Settles O3: a word decodes to the command whose fields it has, and legal fields are those of some command. -/
theorem maskTableAgreesWithFieldRules : Obligations.MaskTableAgreesWithFieldRules :=
  fun w => ⟨exists_decode_iff_wellFormed w, fun _ => fields_of_decode⟩

/-- Settles O4: each word's own decoding. -/
theorem exampleWordsDecode : Obligations.ExampleWordsDecode := by
  unfold Obligations.ExampleWordsDecode
  decide

end Sys2Proof
end

section
/-! The host commands on the command port (20_memory.md section 3; 41_listener_registry.md; 42_wiegand_decoder.md sections
4 to 6): which body runs, and what one phase of a multi-phase command does. -/

namespace Sys2Proof.Machine

/-! ## Which body runs -/

theorem exec_regAttach_idle (s : State) (h : Handle) (p : Pin) (hidle : s.seq = .idle) :
    exec (.regAttach h p) s = .next (regAttachBody h p s) :=
  congrArg Host.Outcome.next (State.onIdle_idle s _ hidle)

theorem exec_decAttach_own {s : State} {c : Command} {k : DecIdx} {pb pa : Pin} (hbusy : s.seq = .busy c)
    (own : encode (.decAttach k pb pa) = .command c.cmd) :
    exec (.decAttach k pb pa) s = .next (decAttachNext k pb pa c s) :=
  congrArg Host.Outcome.next (State.onPort_own s _ _ _ c hbusy own)

theorem exec_decDetach_own {s : State} {c : Command} {k : DecIdx} (hbusy : s.seq = .busy c)
    (own : encode (.decDetach k) = .command c.cmd) :
    exec (.decDetach k) s = .next (decDetachNext k c s) :=
  congrArg Host.Outcome.next (State.onPort_own s _ _ _ c hbusy own)

/-- A command that is not the one in progress is held (R91). -/
theorem exec_held {s : State} {c : Command} {i : Instr} {w : Word} (hbusy : s.seq = .busy c)
    (hw : encode i = .command w) (hother : w ≠ c.cmd) : exec i s = .next s := by
  have notOwn : encode i ≠ .command c.cmd := by
    rw [hw]
    exact fun same => hother (Fetched.command.inj same)
  cases i with
  | regAttach h pa => exact congrArg Host.Outcome.next (s.onIdle_busy _ c hbusy)
  | regDetach pa => exact congrArg Host.Outcome.next (s.onIdle_busy _ c hbusy)
  | decGetid k => exact congrArg Host.Outcome.next (s.onIdle_busy _ c hbusy)
  | decAttach k pb pa => exact congrArg Host.Outcome.next (s.onPort_held _ _ _ c hbusy notOwn)
  | decDetach k => exact congrArg Host.Outcome.next (s.onPort_held _ _ _ c hbusy notOwn)
  | trig0 => cases hw
  | trig1 => cases hw
  | trig2 => cases hw

/-! ## REG.ATTACH on an idle port -/

theorem State.attachOk_eq_true {s : State} {p : Pin} {h : Handle} (hp : validPin s.cfg p = true)
    (hh : validHandle s.cfg h = true) : s.attachOk p h = true := by
  rw [State.attachOk, hp, hh]
  rfl

/-- A handle that names no external listener and no existing decoder is not valid (R38, R171). -/
theorem validHandle_eq_false {c : Config} {h : Handle} (hinternal : handleIsExternal h = false)
    (hmissing : c.numDec ≤ (handleIndex h).toNat) : validHandle c h = false := by
  rw [validHandle, hinternal, (validDecoder_eq_false_iff c _).2 hmissing]
  rfl

/-- REG.ATTACH of valid operands is its body and the answer OK (R171). -/
theorem exec_regAttach_accepted {s : State} {h : Handle} {p : Pin} (hidle : s.seq = .idle)
    (hok : s.attachOk p h = true) :
    exec (.regAttach h p) s = .next { s.attachBody p h with resp := s.resp ++ [0x00000000] } := by
  have idle : (s.attachBody p h).seq = .idle := (s.attachBody_seq p h).trans hidle
  rw [exec_regAttach_idle s h p hidle, regAttachBody, if_pos hok, State.respond_idle _ _ _ idle,
    State.attachBody_resp, responseWord_ok_zero]

theorem exec_regAttach_rejected {s : State} {h : Handle} {p : Pin} (hidle : s.seq = .idle)
    (hbad : s.attachOk p h = false) :
    exec (.regAttach h p) s = .next { s with resp := s.resp ++ [0x40000000] } := by
  rw [exec_regAttach_idle s h p hidle, regAttachBody, if_neg (by simp [hbad]), State.respond_rejected_idle s hidle]

/-! ## DEC.GETID on an idle port -/

/-- DEC.GETID of an existing decoder with no credential answers 0 and writes nothing (R222, R225 (c)). -/
theorem exec_decGetid_empty {s : State} {k : DecIdx} (hidle : s.seq = .idle) (hk : k.toNat < s.cfg.numDec)
    (hempty : (s.decAt k).cred = 0) :
    exec (.decGetid k) s = .next { s with resp := s.resp ++ [0x00000000] } := by
  obtain ⟨-, existing⟩ := Sys2Proof.getidReturnsAndConsumes.2 s k hidle
  have kept : { s.decAt k with cred := 0 } = s.decAt k := by rw [← hempty]
  have same : s.dec.set k.toNat (s.decAt k) = s.dec := by simp [State.decAt]
  have data : (if s.cfg.tSt < s.time - (s.decAt k).tcred then 0#26 else (0 : Word).extractLsb' 0 26) = 0#26 := by
    split <;> rfl
  rw [existing hk, kept, same, hempty, data]
  rfl

/-! ## DEC.ATTACH, first phase and phases DD3, A5 and A6 -/

theorem decAttachFirst_existing {s : State} {k : DecIdx} {pb pa : Pin} {w : Word} (hk : k.toNat < s.cfg.numDec)
    (hw : encode (.decAttach k pb pa) = .command w) :
    decAttachFirst k pb pa s =
      { s with seq := .busy { cmd := w, phase := if (s.decAt k).attached then .dd1 else .a1, t0 := 0, ok0 := false,
                              ok1 := false } } := by
  rw [decAttachFirst, if_pos ((validDecoder_iff s.cfg k).2 hk), hw]
  rfl

/-- The answer of DEC.ATTACH: OK with the two registration results in its lowest bits (R118, R119). -/
theorem responseWord_attachData :
    ∀ ok0 ok1 : Bool, responseWord .ok (attachData ok0 ok1) = 0#30 ++ BitVec.ofBool ok1 ++ BitVec.ofBool ok0 := by
  decide

/-! ## DEC.DETACH, first phase and phase D3 -/

theorem decDetachFirst_existing {s : State} {k : DecIdx} (hk : k.toNat < s.cfg.numDec) :
    ∃ w, encode (.decDetach k) = .command w ∧
      decDetachFirst k s =
        { s with seq := .busy { cmd := w, phase := if (s.decAt k).attached then .d1 else .d3, t0 := 0, ok0 := false,
                                ok1 := false } } := by
  refine ⟨_, rfl, ?_⟩
  rw [decDetachFirst, if_pos ((validDecoder_iff s.cfg k).2 hk)]
  rfl

theorem decDetachNext_d3 {s : State} {k : DecIdx} {c : Command} (hphase : c.phase = .d3) :
    decDetachNext k c s =
      { s with
        dec := s.dec.set k.toNat
          { s.decAt k with attached := false, p0 := 0, p1 := 0, bitcnt := 0, acc := 0, cred := 0 }
        seq := .idle
        resp := s.resp ++ [0x00000000] } := by
  rw [decDetachNext, hphase]
  rfl

/-! ## The mask bit of one pin under the registry's commands -/

theorem State.attachBody_sets_mask_bit {s : State} {p : Pin} {h : Handle} (hok : s.attachOk p h = true)
    (hp : validPin s.cfg p = true) : ((s.attachBody p h).maskAt (bankOf s.cfg p)).getLsbD (bitOf s.cfg p) = true := by
  have hi := bitOf_lt_eight s.cfg p hp
  rw [s.attachBody_accepted p h hok]
  simp [State.maskAt, getLsbD_setBit _ _ _ hi]

theorem State.detachBody_clears_mask_bit {s : State} {p : Pin} (hp : validPin s.cfg p = true) :
    ((s.detachBody p).maskAt (bankOf s.cfg p)).getLsbD (bitOf s.cfg p) = false := by
  have hi := bitOf_lt_eight s.cfg p hp
  rw [s.detachBody_valid p hp]
  simp [State.maskAt, getLsbD_clearBit _ _ _ hi]

/-- The registry's command on pin p: REG.ATTACH with a handle, REG.DETACH without one. -/
def registryCommand (p : Pin) (o : Option Handle) : Instr :=
  match o with
  | some h => .regAttach h p
  | none => .regDetach p

/-- After a registry command that is accepted, the pin's mask bit says which of the two it was (R176). -/
theorem exec_registryCommand {s : State} {p : Pin} (o : Option Handle) (hidle : s.seq = .idle)
    (hp : validPin s.cfg p = true) (hvalid : ∀ h, o = some h → validHandle s.cfg h = true) :
    ∃ t, exec (registryCommand p o) s = .next t ∧ t.seq = .idle ∧ t.cfg = s.cfg ∧
      (t.maskAt (bankOf s.cfg p)).getLsbD (bitOf s.cfg p) = o.isSome := by
  cases o with
  | some h =>
    have hok := State.attachOk_eq_true hp (hvalid h rfl)
    exact ⟨_, exec_regAttach_accepted hidle hok, (s.attachBody_seq p h).trans hidle, s.attachBody_cfg p h,
      State.attachBody_sets_mask_bit hok hp⟩
  | none =>
    exact ⟨_, exec_regDetach_idle s p hidle, (s.detachBody_seq p).trans hidle, s.detachBody_cfg p,
      State.detachBody_clears_mask_bit hp⟩

end Sys2Proof.Machine

namespace Sys2Proof
open Machine

/-- Settles O17: the accepted body, and INV2 for the enable. -/
theorem regAttachNetEffect : Obligations.RegAttachNetEffect := by
  intro s h p hidle hp hh hen
  have hok := State.attachOk_eq_true hp hh
  rw [exec_regAttach_accepted hidle hok, s.attachBody_accepted p h hok, trigEn_after_attach _ _ _ _ hen]
  rfl

/-- Settles O18: either operand alone is enough for the rejection. -/
theorem regAttachRejectsBadOperands : Obligations.RegAttachRejectsBadOperands := by
  rintro s h p hidle (hpin | ⟨hinternal, hmissing⟩)
  · have invalid : validPin s.cfg p = false := decide_eq_false (Nat.not_lt.2 hpin)
    exact exec_regAttach_rejected hidle (by rw [State.attachOk, invalid, Bool.false_and])
  · have invalid : validHandle s.cfg h = false := validHandle_eq_false hinternal hmissing
    exact exec_regAttach_rejected hidle (by rw [State.attachOk, invalid, Bool.and_false])

/-- Settles O21, by induction on the commands: each leaves the port free and the mask bit as the command says, and the
rest of the list goes on from there. -/
theorem maskBitFollowsLastCommand : Obligations.MaskBitFollowsLastCommand := by
  intro s p l hidle hp hvalid
  change ∃ t, execAll (l.map (registryCommand p)) s = .next t ∧ _
  induction l generalizing s with
  | nil => exact ⟨s, rfl, rfl⟩
  | cons o rest ih =>
    obtain ⟨u, first, idle, cfg, bit⟩ := exec_registryCommand o hidle hp (fun h ho => hvalid h (ho ▸ List.mem_cons_self))
    obtain ⟨t, run, mask⟩ := ih u idle (cfg ▸ hp) (fun h hmem => cfg ▸ hvalid h (List.mem_cons_of_mem o hmem))
    have last : (o :: rest).getLast? = some (rest.getLast?.getD o) := List.getLast?_cons
    refine ⟨t, (execAll_cons _ first).trans run, ?_⟩
    rw [cfg] at mask
    rw [mask, last]
    cases rest.getLast? with
    | none => exact bit
    | some o' => rfl

/-- Settles O44. -/
theorem commandIsHeldWhileAnotherRuns : Obligations.CommandIsHeldWhileAnotherRuns :=
  fun _ _ _ _ => exec_held

/-- Settles O54: DEC.GETID then writes what CRED already holds. -/
theorem emptyCredentialReadsZero : Obligations.EmptyCredentialReadsZero :=
  fun _ _ => exec_decGetid_empty

/-- Settles O37: the first DEC.GETID leaves no credential, and the second finds none. -/
theorem secondGetidReturnsZero : Obligations.SecondGetidReturnsZero := by
  intro s k later hidle hk
  obtain ⟨-, existing⟩ := getidReturnsAndConsumes.2 s k hidle
  refine ⟨_, _, existing hk, exec_decGetid_empty hidle hk ?_, rfl⟩
  simp [State.decAt]

/-- Settles O38. -/
theorem decAttachBegins : Obligations.DecAttachBegins := by
  intro s k pa pb w hidle hk hw
  rw [exec_decAttach_idle s k pb pa hidle, decAttachFirst_existing hk hw]

/-- Settles O41: phase A5, with TIME_W's difference as it is written. -/
theorem settlePauseWaitsForTime : Obligations.SettlePauseWaitsForTime := by
  intro s k pa pb c hbusy hphase own
  rw [exec_decAttach_own hbusy own, decAttachNext, hphase]
  exact apply_ite Host.Outcome.next _ _ _

/-- Settles O56. -/
theorem attachLastPhaseResets : Obligations.AttachLastPhaseResets := by
  intro s k pa pb c hbusy hphase own
  rw [exec_decAttach_own hbusy own, decAttachNext, hphase, ← responseWord_attachData]
  rfl

/-- Settles O57. -/
theorem implicitDetachLastPhaseResets : Obligations.ImplicitDetachLastPhaseResets := by
  intro s k pa pb c hbusy hphase own
  rw [exec_decAttach_own hbusy own, decAttachNext, hphase]
  rfl

/-- Settles O58. -/
theorem detachLastPhaseResets : Obligations.DetachLastPhaseResets := by
  intro s k c hbusy hphase own
  rw [exec_decDetach_own hbusy own, decDetachNext_d3 hphase]

/-- Settles O43: D0 of an unattached decoder goes straight to D3. -/
theorem detachOfUnattachedDecoderTouchesNoPin : Obligations.DetachOfUnattachedDecoderTouchesNoPin := by
  intro s k hidle hk hunattached
  obtain ⟨w, own, first⟩ := decDetachFirst_existing hk
  have accepted := (exec_decDetach_idle s k hidle).trans (congrArg Host.Outcome.next first)
  rw [execTimes_succ 1 accepted, execTimes_succ 0 (exec_decDetach_own rfl own), decDetachNext_d3 (by simp [hunattached]),
    execTimes_zero, ← hidle]
  rfl

end Sys2Proof
end

section
/-! What the host commands leave unchanged (60_exceptions.md R263; 42_wiegand_decoder.md sections 3 to 6), how they use
the response port (30_encoding.md R118), and that every instruction answers a next state. -/

namespace Sys2Proof.Machine

/-- Everything a later phase of DEC.DETACH does: its own three phases, and none of the others (R216). -/
theorem decDetachNext_cases (k : DecIdx) (c : Command) (s : State) :
    (c.phase = .d1 ∧ decDetachNext k c s = (s.detachBody (s.decAt k).p0).goto c .d2) ∨
      (c.phase = .d2 ∧ decDetachNext k c s = (s.detachBody (s.decAt k).p1).goto c .d3) ∨
      (c.phase = .d3 ∧ decDetachNext k c s = (s.unbindDecoder k).respond .ok 0) ∨ decDetachNext k c s = s := by
  unfold decDetachNext
  cases c.phase with
  | d1 => exact .inl ⟨rfl, rfl⟩
  | d2 => exact .inr (.inl ⟨rfl, rfl⟩)
  | d3 => exact .inr (.inr (.inl ⟨rfl, rfl⟩))
  | _ => exact .inr (.inr (.inr rfl))

/-! ## The frame of a host command -/

/-- What a host command leaves as it is: the inputs, the parameters and the script, what only triggers write, and every
decoder but its own, `own`; and no command writes a credential but to clear it. -/
structure CommandFrame (own : Option DecIdx) (s t : State) : Prop where
  cfg : t.cfg = s.cfg
  pinIn : t.pinIn = s.pinIn
  time : t.time = s.time
  script : t.script = s.script
  prev : t.prev = s.prev
  evt : t.evt = s.evt
  assertFail : t.assertFail = s.assertFail
  timestamps : ∀ j, (t.decAt j).tlast = (s.decAt j).tlast ∧ (t.decAt j).tcred = (s.decAt j).tcred
  others : ∀ j, own ≠ some j → t.decAt j = s.decAt j
  credentials : ∀ j, (t.decAt j).cred = (s.decAt j).cred ∨ (t.decAt j).cred = 0

/-- Decoder tables that read alike are equal. -/
theorem State.dec_eq_of_decAt_eq {s t : State} (h : ∀ j, t.decAt j = s.decAt j) : t.dec = s.dec := by
  apply Vector.ext
  intro i hi
  have at_i := h (BitVec.ofNat 3 i)
  simpa [State.decAt, Nat.mod_eq_of_lt hi] using at_i

theorem State.decAt_congr {s t : State} (h : t.dec = s.dec) (j : DecIdx) : t.decAt j = s.decAt j := by
  rw [State.decAt, h, State.decAt]

section
variable {own : Option DecIdx} {s t u : State}

theorem CommandFrame.refl (s : State) : CommandFrame own s s :=
  ⟨rfl, rfl, rfl, rfl, rfl, rfl, rfl, fun _ => ⟨rfl, rfl⟩, fun _ _ => rfl, fun _ => .inl rfl⟩

theorem CommandFrame.trans (h : CommandFrame own s t) (h' : CommandFrame own t u) : CommandFrame own s u where
  cfg := h'.cfg.trans h.cfg
  pinIn := h'.pinIn.trans h.pinIn
  time := h'.time.trans h.time
  script := h'.script.trans h.script
  prev := h'.prev.trans h.prev
  evt := h'.evt.trans h.evt
  assertFail := h'.assertFail.trans h.assertFail
  timestamps j := ⟨(h'.timestamps j).1.trans (h.timestamps j).1, (h'.timestamps j).2.trans (h.timestamps j).2⟩
  others j hj := (h'.others j hj).trans (h.others j hj)
  credentials j := by
    obtain kept | cleared := h'.credentials j
    · rw [kept]
      exact h.credentials j
    · exact .inr cleared

/-- The frame of a step that writes no decoder. -/
theorem CommandFrame.of_dec_eq (cfg : t.cfg = s.cfg) (pinIn : t.pinIn = s.pinIn) (time : t.time = s.time)
    (script : t.script = s.script) (prev : t.prev = s.prev) (evt : t.evt = s.evt) (assertFail : t.assertFail = s.assertFail)
    (dec : t.dec = s.dec) : CommandFrame own s t :=
  ⟨cfg, pinIn, time, script, prev, evt, assertFail, fun j => by rw [State.decAt_congr dec]; exact ⟨rfl, rfl⟩,
    fun j _ => State.decAt_congr dec j, fun j => .inl (congrArg Decoder.cred (State.decAt_congr dec j))⟩

theorem CommandFrame.attachBody (s : State) (p : Pin) (h : Handle) : CommandFrame own s (s.attachBody p h) :=
  .of_dec_eq (by simp) (by simp) (by simp) (by simp) (by simp) (by simp) (by simp) (by simp)

theorem CommandFrame.detachBody (s : State) (p : Pin) : CommandFrame own s (s.detachBody p) :=
  .of_dec_eq (by simp) (by simp) (by simp) (by simp) (by simp) (by simp) (by simp) (by simp)

theorem CommandFrame.pullUp (h : CommandFrame own s t) (p : Pin) : CommandFrame own s (t.pullUp p) := by
  unfold State.pullUp
  split
  · exact ⟨h.cfg, h.pinIn, h.time, h.script, h.prev, h.evt, h.assertFail, h.timestamps, h.others, h.credentials⟩
  · exact h

theorem CommandFrame.goto (h : CommandFrame own s t) (c : Command) (ph : Phase) : CommandFrame own s (t.goto c ph) :=
  ⟨h.cfg, h.pinIn, h.time, h.script, h.prev, h.evt, h.assertFail, h.timestamps, h.others, h.credentials⟩

theorem CommandFrame.respond (h : CommandFrame own s t) (st : Status) (data : BitVec 26) :
    CommandFrame own s (t.respond st data) :=
  ⟨h.cfg, h.pinIn, h.time, h.script, h.prev, h.evt, h.assertFail, h.timestamps, h.others, h.credentials⟩

theorem CommandFrame.begin (s : State) (f : Fetched) (ph : Phase) : CommandFrame own s (s.begin f ph) := by
  cases f with
  | command w => exact .of_dec_eq rfl rfl rfl rfl rfl rfl rfl rfl
  | vector v => exact .refl s

/-- A decoder's registers are written by its own commands, its two timestamps by none (R205, R206). -/
theorem CommandFrame.setDec (s : State) (k : DecIdx) (d : Decoder) (htlast : d.tlast = (s.decAt k).tlast)
    (htcred : d.tcred = (s.decAt k).tcred) (hcred : d.cred = (s.decAt k).cred ∨ d.cred = 0) :
    CommandFrame (some k) s (s.setDec k d) := by
  refine ⟨rfl, rfl, rfl, rfl, rfl, rfl, rfl, fun j => ?timestamps, fun j hj => ?others, fun j => ?credentials⟩
  case timestamps =>
    by_cases h : k = j
    · subst h
      simp [htlast, htcred]
    · simp [h]
  case others =>
    have other : k ≠ j := fun h => hj (congrArg some h)
    simp [other]
  case credentials =>
    by_cases h : k = j
    · subst h
      simpa using hcred
    · simp [h]

theorem CommandFrame.resetDecoder (s : State) (k : DecIdx) : CommandFrame (some k) s (s.resetDecoder k) :=
  .setDec s k _ rfl rfl (.inr rfl)

theorem CommandFrame.unbindDecoder (s : State) (k : DecIdx) : CommandFrame (some k) s (s.unbindDecoder k) :=
  .setDec s k _ rfl rfl (.inr rfl)

theorem CommandFrame.bindDecoder (s : State) (k : DecIdx) (pa pb : Pin) :
    CommandFrame (some k) s (s.bindDecoder k pa pb) :=
  .setDec s k _ rfl rfl (.inl rfl)

end

/-! ## Every body has it -/

theorem regAttachBody_frame (h : Handle) (p : Pin) (s : State) : CommandFrame none s (regAttachBody h p s) := by
  unfold regAttachBody
  split
  · exact (CommandFrame.attachBody s p h).respond _ _
  · exact (CommandFrame.refl s).respond _ _

theorem regDetachBody_frame (p : Pin) (s : State) : CommandFrame none s (regDetachBody p s) :=
  (CommandFrame.detachBody s p).respond _ _

theorem decGetidBody_frame (k : DecIdx) (s : State) : CommandFrame (some k) s (decGetidBody k s) := by
  unfold decGetidBody
  split
  · exact (CommandFrame.setDec s k (s.decAt k).resetCompleted rfl rfl (.inr rfl)).respond _ _
  · exact (CommandFrame.refl s).respond _ _

theorem decAttachFirst_frame (k : DecIdx) (pb pa : Pin) (s : State) :
    CommandFrame (some k) s (decAttachFirst k pb pa s) := by
  unfold decAttachFirst
  split
  · exact .begin s _ _
  · exact (CommandFrame.refl s).respond _ _

theorem decDetachFirst_frame (k : DecIdx) (s : State) : CommandFrame (some k) s (decDetachFirst k s) := by
  unfold decDetachFirst
  split
  · exact .begin s _ _
  · exact (CommandFrame.refl s).respond _ _

theorem decAttachNext_frame (k : DecIdx) (pb pa : Pin) (c : Command) (s : State) :
    CommandFrame (some k) s (decAttachNext k pb pa c s) := by
  unfold decAttachNext
  cases c.phase with
  | dd1 => exact (CommandFrame.detachBody s _).goto c _
  | dd2 => exact (CommandFrame.detachBody s _).goto c _
  | dd3 => exact (CommandFrame.unbindDecoder s k).goto c _
  | a1 => exact (CommandFrame.bindDecoder s k pa pb).goto c _
  | a2 => exact (CommandFrame.attachBody s pa _).goto _ _
  | a3 => exact (CommandFrame.attachBody s pb _).goto _ _
  | a4 => exact (((CommandFrame.refl s).pullUp pa).pullUp pb).goto _ _
  | a5 =>
    dsimp only
    split
    · exact (CommandFrame.refl s).goto c _
    · exact .refl s
  | a6 => exact (CommandFrame.resetDecoder s k).respond _ _
  | d1 => exact .refl s
  | d2 => exact .refl s
  | d3 => exact .refl s

theorem decDetachNext_frame (k : DecIdx) (c : Command) (s : State) :
    CommandFrame (some k) s (decDetachNext k c s) := by
  obtain ⟨-, h⟩ | ⟨-, h⟩ | ⟨-, h⟩ | h := decDetachNext_cases k c s <;> rw [h]
  · exact (CommandFrame.detachBody s _).goto c _
  · exact (CommandFrame.detachBody s _).goto c _
  · exact (CommandFrame.unbindDecoder s k).respond _ _
  · exact .refl s

theorem onIdle_frame {own : Option DecIdx} {s : State} {run : State → State} (h : CommandFrame own s (run s)) :
    CommandFrame own s (s.onIdle run) := by
  obtain held | ran := s.onIdle_cases run
  · rw [held]
    exact .refl s
  · rw [ran]
    exact h

theorem onPort_frame {own : Option DecIdx} {s : State} {cmd : Fetched} {first : State → State}
    {next : Command → State → State} (hfirst : CommandFrame own s (first s))
    (hnext : ∀ c, CommandFrame own s (next c s)) : CommandFrame own s (s.onPort cmd first next) := by
  obtain held | ran | ⟨c, -, ran⟩ := s.onPort_cases cmd first next
  · rw [held]
    exact .refl s
  · rw [ran]
    exact hfirst
  · rw [ran]
    exact hnext c

/-- The decoder that a command names. -/
def commandDecoder (i : Instr) : Option DecIdx :=
  match i with
  | .decAttach k _ _ => some k
  | .decDetach k => some k
  | .decGetid k => some k
  | .regAttach _ _ => none
  | .regDetach _ => none
  | .trig0 => none
  | .trig1 => none
  | .trig2 => none

/-- Every host command answers a next state and has the frame. -/
theorem exec_command_frame {i : Instr} {w : Word} (s : State) (hw : encode i = .command w) :
    ∃ t, exec i s = .next t ∧ CommandFrame (commandDecoder i) s t := by
  cases i with
  | regAttach h pa => exact ⟨_, rfl, onIdle_frame (regAttachBody_frame h pa s)⟩
  | regDetach pa => exact ⟨_, rfl, onIdle_frame (regDetachBody_frame pa s)⟩
  | decGetid k => exact ⟨_, rfl, onIdle_frame (decGetidBody_frame k s)⟩
  | decAttach k pb pa =>
    exact ⟨_, rfl, onPort_frame (decAttachFirst_frame k pb pa s) fun c => decAttachNext_frame k pb pa c s⟩
  | decDetach k => exact ⟨_, rfl, onPort_frame (decDetachFirst_frame k s) fun c => decDetachNext_frame k c s⟩
  | trig0 => cases hw
  | trig1 => cases hw
  | trig2 => cases hw

/-! ## Commands and triggers -/

theorem exec_triggerOf (b : Bank) (s : State) : exec (triggerOf b) s = .next (s.admitTrigger b (State.trig b)) :=
  match b with
  | 0 => rfl
  | 1 => rfl
  | 2 => rfl

/-- Every instruction is a host command or the trigger of a bank (R110, R120). -/
theorem command_or_trigger (i : Instr) : (∃ w, encode i = .command w) ∨ ∃ b, i = triggerOf b := by
  cases i with
  | regAttach h pa => exact .inl ⟨_, rfl⟩
  | regDetach pa => exact .inl ⟨_, rfl⟩
  | decAttach k pb pa => exact .inl ⟨_, rfl⟩
  | decDetach k => exact .inl ⟨_, rfl⟩
  | decGetid k => exact .inl ⟨_, rfl⟩
  | trig0 => exact .inr ⟨0, rfl⟩
  | trig1 => exact .inr ⟨1, rfl⟩
  | trig2 => exact .inr ⟨2, rfl⟩

/-- A trigger, admitted or not, writes PREV, decoders, `EVT` and the debug flag alone (R142, R250). -/
theorem exec_trigger_frame (b : Bank) (s : State) :
    ∃ t, exec (triggerOf b) s = .next t ∧
      t = { s with prev := t.prev, dec := t.dec, evt := t.evt, assertFail := t.assertFail } := by
  refine ⟨_, exec_triggerOf b s, ?_⟩
  unfold State.admitTrigger
  split
  · obtain ⟨d, e, a, h⟩ := s.trig_frame b
    rw [h]
  · rfl

/-! ## The response port -/

/-- What one step of an instruction does to the port: nothing that frees it, or one response and the port is free
(R118). -/
def PortStep (s t : State) : Prop :=
  t.resp = s.resp ∧ (t.seq = .idle → s.seq = .idle) ∨
    ∃ st data, t.resp = s.resp ++ [responseWord st data] ∧ t.seq = .idle

theorem PortStep.refl (s : State) : PortStep s s := .inl ⟨rfl, id⟩

theorem PortStep.goto {s t : State} (h : t.resp = s.resp) (c : Command) (ph : Phase) : PortStep s (t.goto c ph) :=
  .inl ⟨h, fun idle => by cases idle⟩

theorem PortStep.respond {s t : State} (h : t.resp = s.resp) (st : Status) (data : BitVec 26) :
    PortStep s (t.respond st data) :=
  .inr ⟨st, data, by rw [State.respond_eq, h], rfl⟩

theorem PortStep.begin {s : State} (f : Fetched) (ph : Phase) : PortStep s (s.begin f ph) := by
  cases f with
  | command w => exact .inl ⟨rfl, fun idle => by cases idle⟩
  | vector v => exact .refl s

theorem State.pullUp_resp (s : State) (p : Pin) : (s.pullUp p).resp = s.resp := by
  unfold State.pullUp
  split <;> rfl

theorem decAttachNext_port (k : DecIdx) (pb pa : Pin) (c : Command) (s : State) :
    PortStep s (decAttachNext k pb pa c s) := by
  unfold decAttachNext
  cases c.phase with
  | dd1 => exact .goto (s.detachBody_resp _) c _
  | dd2 => exact .goto (s.detachBody_resp _) c _
  | dd3 => exact .goto rfl c _
  | a1 => exact .goto rfl c _
  | a2 => exact .goto (s.attachBody_resp pa _) _ _
  | a3 => exact .goto (s.attachBody_resp pb _) _ _
  | a4 => exact .goto (((s.pullUp pa).pullUp_resp pb).trans (s.pullUp_resp pa)) _ _
  | a5 =>
    dsimp only
    split
    · exact .goto rfl c _
    · exact .refl s
  | a6 => exact .respond rfl _ _
  | d1 => exact .refl s
  | d2 => exact .refl s
  | d3 => exact .refl s

theorem decDetachNext_port (k : DecIdx) (c : Command) (s : State) : PortStep s (decDetachNext k c s) := by
  obtain ⟨-, h⟩ | ⟨-, h⟩ | ⟨-, h⟩ | h := decDetachNext_cases k c s <;> rw [h]
  · exact .goto (s.detachBody_resp _) c _
  · exact .goto (s.detachBody_resp _) c _
  · exact .respond rfl _ _
  · exact .refl s

theorem decAttachFirst_port (k : DecIdx) (pb pa : Pin) (s : State) : PortStep s (decAttachFirst k pb pa s) := by
  unfold decAttachFirst
  split
  · exact .begin _ _
  · exact .respond rfl _ _

theorem decDetachFirst_port (k : DecIdx) (s : State) : PortStep s (decDetachFirst k s) := by
  unfold decDetachFirst
  split
  · exact .begin _ _
  · exact .respond rfl _ _

theorem regAttachBody_port (h : Handle) (p : Pin) (s : State) : PortStep s (regAttachBody h p s) := by
  unfold regAttachBody
  split
  · exact .respond (s.attachBody_resp p h) _ _
  · exact .respond rfl _ _

theorem decGetidBody_port (k : DecIdx) (s : State) : PortStep s (decGetidBody k s) := by
  unfold decGetidBody
  split
  · exact .respond rfl _ _
  · exact .respond rfl _ _

theorem onIdle_port {s : State} {run : State → State} (h : PortStep s (run s)) : PortStep s (s.onIdle run) := by
  obtain held | ran := s.onIdle_cases run
  · rw [held]
    exact .refl s
  · rw [ran]
    exact h

theorem onPort_port {s : State} {cmd : Fetched} {first : State → State} {next : Command → State → State}
    (hfirst : PortStep s (first s)) (hnext : ∀ c, PortStep s (next c s)) : PortStep s (s.onPort cmd first next) := by
  obtain held | ran | ⟨c, -, ran⟩ := s.onPort_cases cmd first next
  · rw [held]
    exact .refl s
  · rw [ran]
    exact hfirst
  · rw [ran]
    exact hnext c

/-- Every instruction answers a next state, and uses the port as R118 says; a trigger does not use it. -/
theorem exec_port (i : Instr) (s : State) : ∃ t, exec i s = .next t ∧ PortStep s t := by
  have trigger (b : Bank) : ∃ t, exec (triggerOf b) s = .next t ∧ PortStep s t := by
    obtain ⟨t, run, frame⟩ := exec_trigger_frame b s
    rw [frame] at run
    exact ⟨_, run, .inl ⟨rfl, id⟩⟩
  cases i with
  | regAttach h pa => exact ⟨_, rfl, onIdle_port (regAttachBody_port h pa s)⟩
  | regDetach pa => exact ⟨_, rfl, onIdle_port (.respond (s.detachBody_resp pa) _ _)⟩
  | decGetid k => exact ⟨_, rfl, onIdle_port (decGetidBody_port k s)⟩
  | decAttach k pb pa =>
    exact ⟨_, rfl, onPort_port (decAttachFirst_port k pb pa s) fun c => decAttachNext_port k pb pa c s⟩
  | decDetach k => exact ⟨_, rfl, onPort_port (decDetachFirst_port k s) fun c => decDetachNext_port k c s⟩
  | trig0 => exact trigger 0
  | trig1 => exact trigger 1
  | trig2 => exact trigger 2

/-- A response word's STATUS and its bits 29:26 (R118): `0b11` has no name in `Status`. -/
theorem responseWord_layout (st : Status) (data : BitVec 26) :
    (responseWord st data).extractLsb' 30 2 = statusCode st ∧ (responseWord st data).extractLsb' 26 4 = 0 := by
  constructor
  · rw [responseWord, BitVec.extractLsb'_append_eq_of_le (by decide), BitVec.extractLsb'_append_eq_of_le (by decide)]
    exact BitVec.extractLsb'_eq_self
  · rw [responseWord, BitVec.extractLsb'_append_eq_of_le (by decide)]
    exact BitVec.extractLsb'_append_eq_right

theorem statusCode_ne_three : ∀ st : Status, statusCode st ≠ 3
  | .ok => by decide
  | .rejected => by decide
  | .illegal => by decide

/-! ## Which phases reset a decoder -/

/-- Every decoder's bits in progress, credential and timestamps are as before. -/
def SameContents (s t : State) : Prop :=
  ∀ j, (t.decAt j).bitcnt = (s.decAt j).bitcnt ∧ (t.decAt j).acc = (s.decAt j).acc ∧
    (t.decAt j).tlast = (s.decAt j).tlast ∧ (t.decAt j).cred = (s.decAt j).cred ∧
    (t.decAt j).tcred = (s.decAt j).tcred

theorem SameContents.of_dec_eq {s t : State} (h : t.dec = s.dec) : SameContents s t := by
  intro j
  rw [State.decAt_congr h]
  exact ⟨rfl, rfl, rfl, rfl, rfl⟩

/-- Phase A1 writes the pin assignment alone (R208). -/
theorem SameContents.bindDecoder (s : State) (k : DecIdx) (pa pb : Pin) : SameContents s (s.bindDecoder k pa pb) := by
  intro j
  by_cases h : k = j
  · subst h
    simp [State.bindDecoder]
  · simp [State.bindDecoder, h]

theorem State.pullUp_dec (s : State) (p : Pin) : (s.pullUp p).dec = s.dec := by
  unfold State.pullUp
  split <;> rfl

theorem State.begin_dec (s : State) (f : Fetched) (ph : Phase) : (s.begin f ph).dec = s.dec := by
  cases f <;> rfl

theorem decAttachFirst_dec (k : DecIdx) (pb pa : Pin) (s : State) : (decAttachFirst k pb pa s).dec = s.dec := by
  unfold decAttachFirst
  split
  · exact s.begin_dec _ _
  · rfl

theorem decDetachFirst_dec (k : DecIdx) (s : State) : (decDetachFirst k s).dec = s.dec := by
  unfold decDetachFirst
  split
  · exact s.begin_dec _ _
  · rfl

/-- Every phase of DEC.ATTACH but DD3 and A6. -/
theorem decAttachNext_contents {k : DecIdx} {pb pa : Pin} {c : Command} {s : State} (hdd3 : c.phase ≠ .dd3)
    (ha6 : c.phase ≠ .a6) : SameContents s (decAttachNext k pb pa c s) := by
  unfold decAttachNext
  cases hphase : c.phase with
  | dd3 => exact absurd hphase hdd3
  | a6 => exact absurd hphase ha6
  | a1 => exact SameContents.bindDecoder s k pa pb
  | dd1 => exact .of_dec_eq (s.detachBody_dec _)
  | dd2 => exact .of_dec_eq (s.detachBody_dec _)
  | a2 => exact .of_dec_eq (s.attachBody_dec pa _)
  | a3 => exact .of_dec_eq (s.attachBody_dec pb _)
  | a4 => exact .of_dec_eq (((s.pullUp pa).pullUp_dec pb).trans (s.pullUp_dec pa))
  | a5 => exact .of_dec_eq (by dsimp only; split <;> rfl)
  | d1 => exact .of_dec_eq rfl
  | d2 => exact .of_dec_eq rfl
  | d3 => exact .of_dec_eq rfl

/-- Every phase of DEC.DETACH but D3. -/
theorem decDetachNext_contents {k : DecIdx} {c : Command} {s : State} (hd3 : c.phase ≠ .d3) :
    SameContents s (decDetachNext k c s) := by
  obtain ⟨-, h⟩ | ⟨-, h⟩ | ⟨hphase, -⟩ | h := decDetachNext_cases k c s
  · exact .of_dec_eq (by rw [h]; exact s.detachBody_dec _)
  · exact .of_dec_eq (by rw [h]; exact s.detachBody_dec _)
  · exact absurd hphase hd3
  · exact .of_dec_eq (by rw [h])

theorem onPort_contents {s : State} {cmd : Fetched} {first : State → State} {next : Command → State → State}
    (hfirst : (first s).dec = s.dec) (hnext : ∀ c, s.seq = .busy c → SameContents s (next c s)) :
    SameContents s (s.onPort cmd first next) := by
  obtain held | ran | ⟨c, hbusy, ran⟩ := s.onPort_cases cmd first next
  · exact .of_dec_eq (by rw [held])
  · exact .of_dec_eq (by rw [ran, hfirst])
  · rw [ran]
    exact hnext c hbusy

end Sys2Proof.Machine

namespace Sys2Proof
open Machine

/-- Settles O46: part of the frame of a host command. -/
theorem commandsNeverWriteInterruptState : Obligations.CommandsNeverWriteInterruptState := by
  intro i w s hw
  obtain ⟨t, run, frame⟩ := exec_command_frame s hw
  exact ⟨t, run, frame.prev, frame.evt, frame.assertFail, frame.timestamps⟩

/-- Settles O47: the frame of each of the five commands, with the decoder it names. -/
theorem commandsTouchOnlyTheirDecoder : Obligations.CommandsTouchOnlyTheirDecoder := by
  intro s k j pa pb h hj
  have other : some k ≠ some j := fun same => hj (Option.some.inj same).symm
  obtain ⟨t₁, attach, frame₁⟩ := exec_command_frame (i := .decAttach k pb pa) s rfl
  obtain ⟨t₂, detach, frame₂⟩ := exec_command_frame (i := .decDetach k) s rfl
  obtain ⟨t₃, getid, frame₃⟩ := exec_command_frame (i := .decGetid k) s rfl
  obtain ⟨t₄, regAttach, frame₄⟩ := exec_command_frame (i := .regAttach h pa) s rfl
  obtain ⟨t₅, regDetach, frame₅⟩ := exec_command_frame (i := .regDetach pa) s rfl
  have noDecoder (i : DecIdx) : none ≠ some i := Option.some_ne_none i |>.symm
  exact ⟨⟨t₁, attach, frame₁.others j other⟩, ⟨t₂, detach, frame₂.others j other⟩, ⟨t₃, getid, frame₃.others j other⟩,
    ⟨t₄, regAttach, State.dec_eq_of_decAt_eq fun i => frame₄.others i (noDecoder i)⟩,
    ⟨t₅, regDetach, State.dec_eq_of_decAt_eq fun i => frame₅.others i (noDecoder i)⟩⟩

/-- Settles O48: the frame of a host command, and that of a trigger. -/
theorem instructionsNeverWriteInputs : Obligations.InstructionsNeverWriteInputs := by
  intro i s
  obtain ⟨w, hw⟩ | ⟨b, rfl⟩ := command_or_trigger i
  · obtain ⟨t, run, frame⟩ := exec_command_frame s hw
    exact ⟨t, run, frame.cfg, frame.pinIn, frame.time, frame.script⟩
  · obtain ⟨t, run, frame⟩ := exec_trigger_frame b s
    rw [frame] at run
    exact ⟨_, run, rfl, rfl, rfl, rfl⟩

/-- Settles O49: how an instruction uses the port, and the layout of a response word. -/
theorem oneLegalResponseFreesThePort : Obligations.OneLegalResponseFreesThePort := by
  intro i s
  obtain ⟨t, run, kept | ⟨st, data, placed, free⟩⟩ := exec_port i s
  · exact ⟨t, run, .inl kept⟩
  · obtain ⟨status, zero⟩ := responseWord_layout st data
    exact ⟨t, run, .inr ⟨_, placed, free, status ▸ statusCode_ne_three st, zero⟩⟩

/-- Settles O59: the first phases write no decoder, and the later ones but DD3, A6 and D3 no contents of one. -/
theorem onlyLastPhasesResetDecoders : Obligations.OnlyLastPhasesResetDecoders := by
  rintro s i k pa pb (rfl | rfl) hphases
  · refine ⟨_, rfl, onPort_contents (decAttachFirst_dec k pb pa s) fun c hbusy => ?_⟩
    obtain ⟨notDd3, notA6, -⟩ := hphases c hbusy
    exact decAttachNext_contents notDd3 notA6
  · refine ⟨_, rfl, onPort_contents (decDetachFirst_dec k s) fun c hbusy => ?_⟩
    obtain ⟨-, -, notD3⟩ := hphases c hbusy
    exact decDetachNext_contents notD3

end Sys2Proof
end

section
/-! The bank triggers (40_edge_multiplexer.md; 42_wiegand_decoder.md section 1). A trigger dispatches the changed active
pins one after the other, and what becomes of one decoder, of `EVT` and of the debug flag is read off that list. -/

namespace Sys2Proof.Machine

/-! ## One dispatch -/

@[simp] theorem State.dispatch_cfg (s : State) (p : Pin) (level : Bool) : (s.dispatch p level).cfg = s.cfg := by
  obtain ⟨d, e, a, h⟩ := s.dispatch_frame p level
  rw [h]

@[simp] theorem State.dispatch_time (s : State) (p : Pin) (level : Bool) : (s.dispatch p level).time = s.time := by
  obtain ⟨d, e, a, h⟩ := s.dispatch_frame p level
  rw [h]

@[simp] theorem State.dispatch_mask (s : State) (p : Pin) (level : Bool) : (s.dispatch p level).mask = s.mask := by
  obtain ⟨d, e, a, h⟩ := s.dispatch_frame p level
  rw [h]

@[simp] theorem State.dispatch_lvalidAt (s : State) (p : Pin) (level : Bool) (q : Pin) :
    (s.dispatch p level).lvalidAt q = s.lvalidAt q := by
  obtain ⟨d, e, a, h⟩ := s.dispatch_frame p level
  rw [h]
  rfl

@[simp] theorem State.dispatch_listenerAt (s : State) (p : Pin) (level : Bool) (q : Pin) :
    (s.dispatch p level).listenerAt q = s.listenerAt q := by
  obtain ⟨d, e, a, h⟩ := s.dispatch_frame p level
  rw [h]
  rfl

theorem State.dispatch_decAt (s : State) (p : Pin) (level : Bool) (k : DecIdx) :
    (s.dispatch p level).decAt k =
      if s.lvalidAt p && s.listenerAt p == decoderHandle k then
        (s.decAt k).handle s.cfg.tRd s.cfg.tSt s.time p level
      else s.decAt k := by
  cases hv : s.lvalidAt p with
  | false => simp [s.dispatch_unbound p level hv]
  | true =>
    cases he : handleIsExternal (s.listenerAt p) with
    | true =>
      have notDecoder : s.listenerAt p ≠ decoderHandle k := by
        intro h
        simp [h, handleIsExternal_decoderHandle] at he
      simp [s.dispatch_external p level hv he, notDecoder]
    | false =>
      have named : s.listenerAt p = decoderHandle k ↔ handleIndex (s.listenerAt p) = k := by
        rw [eq_decoderHandle_iff]
        simp [he]
      rw [s.dispatch_decoder p level hv he, State.handle, State.setDec_decAt]
      by_cases hk : handleIndex (s.listenerAt p) = k
      · rw [if_pos hk, named.2 hk, handleIndex_decoderHandle]
        simp [State.now]
      · simp [hk, mt named.1 hk]

/-- The event of the dispatch of pin p, if an external listener holds it (R152). -/
def State.eventOf (s : State) (p : Pin) (level : Bool) : Option Event :=
  if s.lvalidAt p && (s.listenerAt p).getLsbD 3 then some (.ext ((s.listenerAt p).extractLsb' 0 3) p level) else none

theorem State.dispatch_evt (s : State) (p : Pin) (level : Bool) :
    (s.dispatch p level).evt = s.evt ++ (s.eventOf p level).toList := by
  cases hv : s.lvalidAt p with
  | false => simp [s.dispatch_unbound p level hv, State.eventOf, hv]
  | true =>
    cases he : handleIsExternal (s.listenerAt p) with
    | true =>
      have external : (s.listenerAt p).getLsbD 3 = true := he
      rw [s.dispatch_external p level hv he, State.eventOf, hv, external]
      rfl
    | false =>
      have internal : (s.listenerAt p).getLsbD 3 = false := he
      rw [s.dispatch_decoder p level hv he, State.eventOf, hv, internal]
      simp [State.handle]

theorem State.dispatch_assertFail (s : State) (p : Pin) (level : Bool) :
    (s.dispatch p level).assertFail = (s.assertFail || !s.lvalidAt p) := by
  cases hv : s.lvalidAt p with
  | false => simp [s.dispatch_unbound p level hv]
  | true =>
    cases he : handleIsExternal (s.listenerAt p) with
    | true => simp [s.dispatch_external p level hv he]
    | false => simp [s.dispatch_decoder p level hv he, State.handle]

/-! ## A list of dispatches -/

/-- Bits of bank b dispatched one after the other, each with its sampled level. -/
def State.dispatchAll (s : State) (b : Bank) (cur : Byte) (l : List Nat) : State :=
  l.foldl (fun t i => t.dispatch (pinAt t.cfg b i) (cur.getLsbD i)) s

/-- The loop of R141 dispatches the changed bits of its list. -/
theorem State.dispatchBits_eq_dispatchAll (s : State) (b : Bank) (cur changed : Byte) (l : List Nat) :
    s.dispatchBits b cur changed l = s.dispatchAll b cur (l.filter changed.getLsbD) := by
  induction l generalizing s with
  | nil => rfl
  | cons i rest ih =>
    rw [State.dispatchBits_cons, ih]
    cases hi : changed.getLsbD i with
    | true => rw [List.filter_cons_of_pos hi, State.dispatchAll, State.dispatchAll, List.foldl_cons]; rfl
    | false => rw [List.filter_cons_of_neg (by simp [hi])]; rfl

/-- What the dispatch of bit i of bank b makes of decoder k's registers: HANDLE where the pin is registered to decoder k,
and nothing otherwise (R151). -/
def State.handled (s : State) (k : DecIdx) (b : Bank) (cur : Byte) (d : Decoder) (i : Nat) : Decoder :=
  let p := pinAt s.cfg b i
  if s.lvalidAt p && s.listenerAt p == decoderHandle k then
    d.handle s.cfg.tRd s.cfg.tSt s.time p (cur.getLsbD i)
  else d

theorem State.dispatchAll_decAt (s : State) (b : Bank) (cur : Byte) (l : List Nat) (k : DecIdx) :
    (s.dispatchAll b cur l).decAt k = l.foldl (s.handled k b cur) (s.decAt k) := by
  induction l generalizing s with
  | nil => rfl
  | cons i rest ih =>
    have sameHandled (p : Pin) (level : Bool) : (s.dispatch p level).handled k b cur = s.handled k b cur := by
      funext d j
      simp [State.handled]
    have first := s.dispatch_decAt (pinAt s.cfg b i) (cur.getLsbD i) k
    rw [State.dispatchAll, List.foldl_cons, ← State.dispatchAll, ih, sameHandled, first]
    rfl

theorem State.dispatchAll_evt (s : State) (b : Bank) (cur : Byte) (l : List Nat) :
    (s.dispatchAll b cur l).evt =
      s.evt ++ l.filterMap fun i => s.eventOf (pinAt s.cfg b i) (cur.getLsbD i) := by
  induction l generalizing s with
  | nil => simp [State.dispatchAll]
  | cons i rest ih =>
    have sameEvent (q p : Pin) (level l' : Bool) : (s.dispatch q l').eventOf p level = s.eventOf p level := by
      simp [State.eventOf]
    rw [State.dispatchAll, List.foldl_cons, ← State.dispatchAll, ih, State.dispatch_evt]
    simp only [sameEvent, State.dispatch_cfg, List.append_assoc]
    cases he : s.eventOf (pinAt s.cfg b i) (cur.getLsbD i) <;> simp [he]

theorem State.dispatchAll_assertFail (s : State) (b : Bank) (cur : Byte) (l : List Nat) :
    (s.dispatchAll b cur l).assertFail = (s.assertFail || l.any fun i => !s.lvalidAt (pinAt s.cfg b i)) := by
  induction l generalizing s with
  | nil => simp [State.dispatchAll]
  | cons i rest ih =>
    rw [State.dispatchAll, List.foldl_cons, ← State.dispatchAll, ih, State.dispatch_assertFail]
    simp [Bool.or_assoc]

/-! ## TRIG -/

theorem State.getLsbD_changedBits (s : State) (b : Bank) (i : Nat) :
    (s.changedBits b (s.samplePins b)).getLsbD i = dispatched s b i := by
  rw [State.changedBits, BitVec.getLsbD_and, BitVec.getLsbD_xor]
  rfl

/-- TRIG b stores the sample and dispatches the changed active bits, in ascending order (R141). -/
theorem State.trig_eq (b : Bank) (s : State) :
    s.trig b = (s.setPrev b (s.samplePins b)).dispatchAll b (s.samplePins b) (dispatchedBits s b) := by
  have changed : (s.changedBits b (s.samplePins b)).getLsbD = dispatched s b := funext (s.getLsbD_changedBits b)
  rw [State.trig, State.dispatchBits_eq_dispatchAll, changed]
  rfl

theorem State.trig_decAt (b : Bank) (s : State) (k : DecIdx) :
    (s.trig b).decAt k = (dispatchedBits s b).foldl (s.handled k b s.pinIn[b]) (s.decAt k) := by
  rw [State.trig_eq, State.dispatchAll_decAt]
  rfl

theorem State.trig_evt (b : Bank) (s : State) :
    (s.trig b).evt =
      s.evt ++ (dispatchedBits s b).filterMap fun i => s.eventOf (pinAt s.cfg b i) (s.pinIn[b].getLsbD i) := by
  rw [State.trig_eq, State.dispatchAll_evt]
  rfl

theorem State.trig_assertFail (b : Bank) (s : State) :
    (s.trig b).assertFail = (s.assertFail || (dispatchedBits s b).any fun i => !s.lvalidAt (pinAt s.cfg b i)) := by
  rw [State.trig_eq, State.dispatchAll_assertFail]
  rfl

/-- A trigger that is admitted runs TRIG of its bank (R250). -/
theorem exec_trigger_admitted {b : Bank} {s : State} (h : s.trigEnAt b = true) :
    exec (triggerOf b) s = .next (s.trig b) := by
  rw [exec_triggerOf, State.admitTrigger, if_pos h]

theorem exec_trigger_refused {b : Bank} {s : State} (h : s.trigEnAt b = false) :
    exec (triggerOf b) s = .next s := by
  rw [exec_triggerOf, State.admitTrigger, if_neg (by simp [h])]

/-! ## A decoder that a trigger leaves as it is -/

theorem foldl_eq_of_fixed {α β : Type} {f : α → β → α} {a : α} {l : List β} (h : ∀ x ∈ l, f a x = a) : l.foldl f a = a := by
  induction l with
  | nil => rfl
  | cons x rest ih =>
    rw [List.foldl_cons, h x List.mem_cons_self]
    exact ih fun y hy => h y (List.mem_cons_of_mem x hy)

/-- A trigger leaves decoder k as it is where no changed active pin that is registered to it makes HANDLE write. -/
theorem State.trig_decAt_of_fixed {b : Bank} {s : State} {k : DecIdx}
    (h : ∀ i, dispatched s b i = true → s.lvalidAt (pinAt s.cfg b i) = true →
      s.listenerAt (pinAt s.cfg b i) = decoderHandle k →
      (s.decAt k).handle s.cfg.tRd s.cfg.tSt s.time (pinAt s.cfg b i) (s.pinIn[b].getLsbD i) = s.decAt k) :
    (s.trig b).decAt k = s.decAt k := by
  rw [State.trig_decAt]
  refine foldl_eq_of_fixed fun i hi => ?_
  unfold State.handled
  dsimp only
  split
  · rename_i hreg
    simp only [Bool.and_eq_true, beq_iff_eq] at hreg
    exact h i (mem_dispatchedBits.1 hi) hreg.1 hreg.2
  · rfl

/-- Two decoders have different handles (R38). -/
theorem decoderHandle_injective {j k : DecIdx} (h : decoderHandle j = decoderHandle k) : j = k := by
  rw [← handleIndex_decoderHandle j, h, handleIndex_decoderHandle]

/-! ## Which decoder registers HANDLE writes, and SHIFT_IN written out -/

/-- The pin assignment of two decoder states is the same. -/
def Decoder.SameBinding (d e : Decoder) : Prop := e.attached = d.attached ∧ e.p0 = d.p0 ∧ e.p1 = d.p1

theorem Decoder.SameBinding.refl (d : Decoder) : d.SameBinding d := ⟨rfl, rfl, rfl⟩

theorem Decoder.SameBinding.trans {d e f : Decoder} (h : d.SameBinding e) (h' : e.SameBinding f) : d.SameBinding f :=
  ⟨h'.1.trans h.1, h'.2.1.trans h.2.1, h'.2.2.trans h.2.2⟩

theorem Decoder.shiftIn_binding (d : Decoder) (tRd tSt now : Time) (bit : Bool) :
    d.SameBinding (d.shiftIn tRd tSt now bit) := by
  by_cases h26 : d.countKept tRd now + 1 = 26
  · cases hage : exceeds now d.tcred tSt
    · rw [Decoder.shiftIn_drops d tRd tSt now bit h26 hage]
      exact ⟨rfl, rfl, rfl⟩
    · rw [Decoder.shiftIn_promotes d tRd tSt now bit h26 hage]
      exact ⟨rfl, rfl, rfl⟩
  · rw [Decoder.shiftIn_incomplete d tRd tSt now bit h26]
    exact ⟨rfl, rfl, rfl⟩

/-- HANDLE leaves a decoder's pin assignment (R142). -/
theorem Decoder.handle_binding (d : Decoder) (tRd tSt now : Time) (p : Pin) (level : Bool) :
    d.SameBinding (d.handle tRd tSt now p level) := by
  obtain h | ⟨-, -, ⟨-, h⟩ | ⟨-, -, h⟩⟩ := d.handle_cases tRd tSt now p level
  · rw [h]
    exact .refl d
  · rw [h]
    exact d.shiftIn_binding tRd tSt now false
  · rw [h]
    exact d.shiftIn_binding tRd tSt now true

/-- What a dispatch makes of a decoder is HANDLE of it or nothing. -/
theorem State.handled_cases (s : State) (k : DecIdx) (b : Bank) (cur : Byte) (d : Decoder) (i : Nat) :
    s.handled k b cur d i = d ∨
      s.handled k b cur d i = d.handle s.cfg.tRd s.cfg.tSt s.time (pinAt s.cfg b i) (cur.getLsbD i) := by
  unfold State.handled
  dsimp only
  split
  · exact .inr rfl
  · exact .inl rfl

theorem State.trig_binding (b : Bank) (s : State) (k : DecIdx) : (s.decAt k).SameBinding ((s.trig b).decAt k) := by
  rw [State.trig_decAt]
  refine List.foldlRecOn (motive := (s.decAt k).SameBinding) (dispatchedBits s b) _ (.refl _) fun d hd i _ => ?_
  obtain h | h := s.handled_cases k b s.pinIn[b] d i
  · rw [h]
    exact hd
  · rw [h]
    exact hd.trans (d.handle_binding _ _ _ _ _)

/-- SHIFT_IN as R198 writes it. -/
theorem Decoder.shiftIn_eq (d : Decoder) (tRd tSt now : Time) (bit : Bool) (stalled : Prop) [Decidable stalled]
    (hstalled : stalled ↔ tRd < now - d.tlast) (count : BitVec 5)
    (hcount : count = (if stalled then (0 : BitVec 5) else d.bitcnt) + 1) (value : Word)
    (hvalue : value = (if stalled then (0 : Word) else d.acc) <<< 1 ||| (if bit then (1 : Word) else 0)) :
    d.shiftIn tRd tSt now bit =
      if count = 26 then
        if tSt < now - d.tcred then { d with bitcnt := 0, acc := 0, tlast := now, cred := value, tcred := now }
        else { d with bitcnt := 0, acc := 0, tlast := now }
      else { d with bitcnt := count, acc := value, tlast := now } := by
  have stall : exceeds now d.tlast tRd = decide stalled := decide_eq_decide.2 hstalled.symm
  have countEq : d.countKept tRd now + 1 = count := by
    rw [hcount, Decoder.countKept, stall]
    simp
  have bitWord : (BitVec.ofBool bit).setWidth 32 = if bit then (1 : Word) else 0 := by cases bit <;> rfl
  have valueEq : d.accWith tRd now bit = value := by
    rw [hvalue, Decoder.accWith, Decoder.accKept, stall, bitWord]
    simp
  by_cases h26 : count = 26
  · rw [if_pos h26]
    by_cases hage : tSt < now - d.tcred
    · rw [if_pos hage, d.shiftIn_promotes tRd tSt now bit (countEq.trans h26) (decide_eq_true hage), valueEq]
    · rw [if_neg hage, d.shiftIn_drops tRd tSt now bit (countEq.trans h26) (decide_eq_false hage)]
  · rw [if_neg h26, d.shiftIn_incomplete tRd tSt now bit (countEq ▸ h26), countEq, valueEq]

/-- A falling edge on a pin of an attached decoder is the bit of that pin, the zero-pin tested first (R191). -/
theorem Decoder.handle_falling {d : Decoder} (tRd tSt now : Time) {p : Pin} {bit : Bool} (hattached : d.attached = true)
    (hpin : bit = false ∧ p = d.p0 ∨ bit = true ∧ p ≠ d.p0 ∧ p = d.p1) :
    d.handle tRd tSt now p false = d.shiftIn tRd tSt now bit := by
  obtain ⟨rfl, hp⟩ | ⟨rfl, hnot, hp⟩ := hpin
  · simp [Decoder.handle, hattached, hp]
  · rw [Decoder.handle, if_neg (by simp [hattached]), if_neg Bool.false_ne_true, if_neg hnot, if_pos hp]

/-! ## Bits with no listener -/

/-- Dispatching pins with no listener sets the debug flag, if there is one, and does nothing else (R150). -/
theorem State.dispatchAll_unbound {s : State} {b : Bank} {cur : Byte} {l : List Nat}
    (h : ∀ i ∈ l, s.lvalidAt (pinAt s.cfg b i) = false) :
    s.dispatchAll b cur l = { s with assertFail := s.assertFail || !l.isEmpty } := by
  induction l generalizing s with
  | nil => simp [State.dispatchAll]
  | cons i rest ih =>
    have others : ∀ j ∈ rest, s.raiseAssert.lvalidAt (pinAt s.raiseAssert.cfg b j) = false :=
      fun j hj => h j (List.mem_cons_of_mem i hj)
    rw [State.dispatchAll, List.foldl_cons, ← State.dispatchAll, s.dispatch_unbound _ _ (h i List.mem_cons_self),
      ih others]
    simp [State.raiseAssert]

/-! ## The debug flag -/

/-- Where a trigger sets the debug flag, it has reached a changed active pin with no listener (R150). -/
theorem State.trig_raises {b : Bank} {s : State} (hafter : (s.trig b).assertFail = true) (hbefore : s.assertFail = false) :
    ∃ i, dispatched s b i = true ∧ s.lvalidAt (pinAt s.cfg b i) = false := by
  rw [State.trig_assertFail, hbefore, Bool.false_or, List.any_eq_true] at hafter
  obtain ⟨i, hi, hunbound⟩ := hafter
  exact ⟨i, mem_dispatchedBits.1 hi, by simpa using hunbound⟩

/-- Every instruction keeps a debug flag that is set, and only an admitted trigger sets it (R150, R244). -/
theorem exec_assertFail (i : Instr) (s : State) :
    ∃ t, exec i s = .next t ∧ (s.assertFail = true → t.assertFail = true) ∧
      (t.assertFail = true → s.assertFail = false →
        ∃ b j, i = triggerOf b ∧ s.trigEnAt b = true ∧ dispatched s b j = true ∧
          s.lvalidAt (pinAt s.cfg b j) = false) := by
  obtain ⟨w, hw⟩ | ⟨b, rfl⟩ := command_or_trigger i
  · obtain ⟨t, run, frame⟩ := exec_command_frame s hw
    refine ⟨t, run, fun h => frame.assertFail.trans h, fun hafter hbefore => ?_⟩
    rw [frame.assertFail, hbefore] at hafter
    cases hafter
  · cases hen : s.trigEnAt b with
    | false =>
      refine ⟨s, exec_trigger_refused hen, id, fun hafter hbefore => ?_⟩
      rw [hbefore] at hafter
      cases hafter
    | true =>
      refine ⟨s.trig b, exec_trigger_admitted hen, fun h => by rw [State.trig_assertFail, h, Bool.true_or], ?_⟩
      intro hafter hbefore
      obtain ⟨j, hj, hunbound⟩ := State.trig_raises hafter hbefore
      exact ⟨b, j, rfl, hen, hj, hunbound⟩

/-! ## Inactive pins -/

/-- The state with other levels and another previous sample of bank b. -/
def State.withLevels (s : State) (b : Bank) (cur old : Byte) : State :=
  { s with pinIn := s.pinIn.set b cur, prev := s.prev.set b old }

theorem State.withLevels_pinIn (s : State) (b : Bank) (cur old : Byte) : (s.withLevels b cur old).pinIn[b] = cur := by
  simp [State.withLevels]

/-- Levels that agree on the active bits give the same dispatched bits (R144). -/
theorem dispatchedBits_withLevels {s : State} {b : Bank} {cur old : Byte}
    (h : ∀ i, (s.maskAt b).getLsbD i = true →
      cur.getLsbD i = s.pinIn[b].getLsbD i ∧ old.getLsbD i = (s.prevAt b).getLsbD i) :
    dispatchedBits (s.withLevels b cur old) b = dispatchedBits s b := by
  have same : dispatched (s.withLevels b cur old) b = dispatched s b := by
    funext i
    have split : dispatched (s.withLevels b cur old) b i =
        ((s.maskAt b).getLsbD i && (cur.getLsbD i != old.getLsbD i)) := by
      simp [dispatched, State.withLevels, State.maskAt]
    rw [split]
    cases hi : (s.maskAt b).getLsbD i with
    | false =>
      have inactive : s.mask[b].getLsbD i = false := hi
      rw [dispatched, inactive, Bool.false_and, Bool.false_and]
    | true =>
      have active : s.mask[b].getLsbD i = true := hi
      obtain ⟨hcur, hold⟩ := h i hi
      rw [dispatched, active, hcur, hold]
      rfl
  rw [dispatchedBits, same, dispatchedBits]

theorem active_of_mem_dispatchedBits {s : State} {b : Bank} {i : Nat} (h : i ∈ dispatchedBits s b) :
    (s.maskAt b).getLsbD i = true := by
  have both := mem_dispatchedBits.1 h
  rw [dispatched, Bool.and_eq_true] at both
  exact both.1

end Sys2Proof.Machine

namespace Sys2Proof
open Machine

/-- Settles O22. -/
theorem requestWithTriggerDisabledHasNoEffect : Obligations.RequestWithTriggerDisabledHasNoEffect :=
  fun _ _ => exec_trigger_refused

/-- Settles O24: the events of the dispatches, one after the other. -/
theorem trigEmitsChangedExternalPinsInOrder : Obligations.TrigEmitsChangedExternalPinsInOrder := by
  intro b s hen
  have ascending : [0, 1, 2, 3, 4, 5, 6, 7].Pairwise (· < ·) := by decide
  exact ⟨_, exec_trigger_admitted hen, ascending.filter _, s.trig_evt b⟩

/-- Settles O25: the dispatches, as decoder k sees them. -/
theorem trigHandlesDecoderPinsInOrder : Obligations.TrigHandlesDecoderPinsInOrder :=
  fun b s k hen => ⟨_, exec_trigger_admitted hen, s.trig_decAt b k⟩

/-- Settles O28: the flag after the dispatches. -/
theorem unboundActivePinSetsAssertFail : Obligations.UnboundActivePinSetsAssertFail :=
  fun b s hen => ⟨_, exec_trigger_admitted hen, s.trig_assertFail b⟩

/-- Settles O26: there is nothing to dispatch. -/
theorem spuriousTriggerOnlyStoresSample : Obligations.SpuriousTriggerOnlyStoresSample := by
  intro b s hen hunchanged
  have none : dispatchedBits s b = [] := by
    refine List.filter_eq_nil_iff.2 fun i _ => ?_
    have clear : s.changedBits b (s.samplePins b) = 0 := hunchanged
    rw [← s.getLsbD_changedBits b i, clear]
    simp
  rw [exec_trigger_admitted hen, State.trig_eq, none]
  rfl

/-- Settles O29: HANDLE does nothing on a detached decoder, and no pin of an unnamed one is dispatched to it. -/
theorem detachedOrUnnamedDecoderIsDeaf : Obligations.DetachedOrUnnamedDecoderIsDeaf := by
  intro b s k hen hdeaf
  refine ⟨_, exec_trigger_admitted hen, State.trig_decAt_of_fixed fun i _ hreg hnamed => ?_⟩
  obtain hdetached | hunnamed := hdeaf
  · exact Decoder.handle_unattached _ _ _ _ _ _ hdetached
  · exact absurd hnamed (hunnamed _ hreg)

/-- Settles O51: HANDLE of such a pin does nothing. -/
theorem edgeOnUnassignedPinIsNoBit : Obligations.EdgeOnUnassignedPinIsNoBit := by
  intro b s k hen hunassigned
  refine ⟨_, exec_trigger_admitted hen, State.trig_decAt_of_fixed fun i hi hreg hnamed => ?_⟩
  obtain ⟨notZeroPin, notOnePin⟩ := hunassigned i hi hreg hnamed
  exact Decoder.handle_unassigned _ _ _ _ _ _ notZeroPin notOnePin

/-- Settles O30: HANDLE of a rising edge does nothing. -/
theorem risingEdgesChangeNoDecoder : Obligations.RisingEdgesChangeNoDecoder := by
  intro b s hen hrising
  refine ⟨_, exec_trigger_admitted hen, State.dec_eq_of_decAt_eq fun k => ?_⟩
  refine State.trig_decAt_of_fixed fun i hi _ _ => ?_
  rw [hrising i hi]
  exact Decoder.handle_rising _ _ _ _ _

/-- Settles O23: the frame of a trigger, and the pin assignment that HANDLE leaves. -/
theorem trigStoresSampleAndFrame : Obligations.TrigStoresSampleAndFrame := by
  intro b s hen
  obtain ⟨d, e, a, frame⟩ := s.trig_frame b
  refine ⟨_, exec_trigger_admitted hen, ?_⟩
  have binding := s.trig_binding b
  rw [frame] at binding ⊢
  exact ⟨rfl, rfl, rfl, rfl, rfl, rfl, rfl, rfl, rfl, rfl, rfl, rfl, binding⟩

/-- Settles O52: the dispatched bits are some, and none of them has a listener. -/
theorem unboundPinsAreSkipped : Obligations.UnboundPinsAreSkipped := by
  intro b s hen hsome hunbound
  have reached : (!(dispatchedBits s b).isEmpty) = true := by simpa using hsome
  have skipped : ∀ i ∈ dispatchedBits s b,
      (s.setPrev b (s.samplePins b)).lvalidAt (pinAt (s.setPrev b (s.samplePins b)).cfg b i) = false :=
    fun i hi => hunbound i (mem_dispatchedBits.1 hi)
  rw [exec_trigger_admitted hen, State.trig_eq, State.dispatchAll_unbound skipped, reached, Bool.or_true]
  rfl

/-- Settles O31: one dispatch, which for its decoder is SHIFT_IN and for the others nothing. -/
theorem oneFallingEdgeShiftsOneBit : Obligations.OneFallingEdgeShiftsOneBit := by
  intro b s i k bit hen hone hfalls hreg hnamed hattached hpin d stalled count value
  refine ⟨_, exec_trigger_admitted hen, fun j hj => ?others, ?events, ?shift⟩
  case others =>
    have notNamed : s.listenerAt (pinAt s.cfg b i) ≠ decoderHandle j :=
      fun h => hj (decoderHandle_injective (h.symm.trans hnamed))
    rw [State.trig_decAt, hone]
    simp [State.handled, notNamed]
  case events =>
    have internal : (s.listenerAt (pinAt s.cfg b i)).getLsbD 3 = false :=
      (congrArg handleIsExternal hnamed).trans (handleIsExternal_decoderHandle k)
    have noEvent (level : Bool) : s.eventOf (pinAt s.cfg b i) level = none := by
      rw [State.eventOf, internal, Bool.and_false]
      rfl
    rw [State.trig_evt, hone]
    simp [noEvent]
  case shift =>
    have handled : s.handled k b s.pinIn[b] d i = d.shiftIn s.cfg.tRd s.cfg.tSt s.time bit := by
      rw [State.handled, hfalls, ← Decoder.handle_falling _ _ _ hattached hpin]
      simp [hreg, hnamed, d]
    rw [State.trig_decAt, hone, List.foldl_cons, List.foldl_nil, handled]
    exact d.shiftIn_eq _ _ _ bit stalled Iff.rfl count rfl value rfl

/-- Settles O27: the same bits are dispatched, each with the same level, so each decoder, `EVT` and the flag see the
same. -/
theorem inactivePinsHaveNoInfluence : Obligations.InactivePinsHaveNoInfluence := by
  intro b s cur old hen hactive
  refine ⟨_, _, exec_trigger_admitted hen, exec_trigger_admitted (s := s.withLevels b cur old) hen, ?_⟩
  have bits := dispatchedBits_withLevels hactive
  have levels : ∀ i ∈ dispatchedBits s b, cur.getLsbD i = s.pinIn[b].getLsbD i :=
    fun i hi => (hactive i (active_of_mem_dispatchedBits hi)).1
  refine ⟨State.dec_eq_of_decAt_eq fun k => ?decoder, ?events, ?flag⟩
  case decoder =>
    rw [State.trig_decAt, State.trig_decAt, bits, State.withLevels_pinIn]
    refine List.foldl_ext _ _ _ fun d i hi => ?_
    rw [State.handled, State.handled, levels i hi]
    rfl
  case events =>
    rw [State.trig_evt, State.trig_evt, bits, State.withLevels_pinIn]
    refine congrArg (s.evt ++ ·) (List.filterMap_congr fun i hi => ?_)
    rw [levels i hi]
    rfl
  case flag =>
    rw [State.trig_assertFail, State.trig_assertFail, bits]
    rfl

end Sys2Proof
end

section
/-! One step of the block (20_memory.md section 3; 10_state.md section 5; 60_exceptions.md sections 1 to 5): what comes
next from outside, what the step does with it, and that held command words are no part of what it does. -/

namespace Sys2Proof.Machine

/-! ## What comes next -/

theorem State.nextInput_idle {s : State} {e : Input} {rest : List Input} (hidle : s.seq = .idle)
    (hscript : s.script = e :: rest) : s.nextInput = some (e, rest) := by
  simp only [State.nextInput, hidle, hscript]

theorem State.nextInput_busy {s : State} {c : Command} (hbusy : s.seq = .busy c) :
    s.nextInput = firstOutside s.script := by
  simp only [State.nextInput, hbusy]

/-- What is no command word comes next whatever the sequencer does (R91, R254). -/
theorem firstOutside_head {e : Input} (rest : List Input) (he : ∀ w, e ≠ .command w) :
    firstOutside (e :: rest) = some (e, rest) := by
  cases e with
  | command w => exact absurd rfl (he w)
  | pins b v => rfl
  | time t => rfl
  | request b stray => rfl
  | sequencer => rfl

/-- A command word that is held stays where it is in the script (R91). -/
theorem firstOutside_held (w : Word) {e : Input} (rest : List Input) (he : ∀ w, e ≠ .command w) :
    firstOutside (.command w :: e :: rest) = some (e, .command w :: rest) := by
  rw [firstOutside, firstOutside_head rest he]

theorem State.nextInput_outside {s : State} {e : Input} {rest : List Input} (hscript : s.script = e :: rest)
    (he : ∀ w, e ≠ .command w) : s.nextInput = some (e, rest) := by
  cases hseq : s.seq with
  | idle => exact State.nextInput_idle hseq hscript
  | busy c => rw [State.nextInput_busy hseq, hscript, firstOutside_head rest he]

theorem State.turn_of_input {s : State} {e : Input} {rest : List Input} (h : s.nextInput = some (e, rest)) :
    s.turn = (s.setScript rest).take e := by
  simp only [State.turn, h]

theorem State.turn_of_no_input {s : State} (h : s.nextInput = none) : s.turn = s.sequencerTurn := by
  simp only [State.turn, h]

theorem State.sequencerTurn_idle {s : State} (h : s.seq = .idle) : s.sequencerTurn = .outside s := by
  simp only [State.sequencerTurn, h]

theorem State.sequencerTurn_busy {s : State} {c : Command} (h : s.seq = .busy c) :
    s.sequencerTurn = .fetched (.command c.cmd) s := by
  simp only [State.sequencerTurn, h]

/-! ## What a step does with it -/

/-- The step that a turn makes. -/
def Turn.run : Turn → Host.Outcome State Fault Refusal
  | .outside t => .next t
  | .fetched f t =>
    match decode f with
    | .ok i => exec i t
    | .error _ => .next (t.rejectFetched f)

theorem step_eq_run {s : State} (h : s.assertFail = false) : step s = s.turn.run := by
  rw [step, if_neg (by simp [h])]
  cases s.turn <;> rfl

@[simp] theorem Turn.run_outside (t : State) : (Turn.outside t).run = .next t := rfl

theorem Turn.run_instruction {f : Fetched} {i : Instr} (t : State) (h : decode f = .ok i) :
    (Turn.fetched f t).run = exec i t := by
  simp only [Turn.run, h]

theorem Turn.run_rejected {f : Fetched} {r : DecodeError} (t : State) (h : decode f = .error r) :
    (Turn.fetched f t).run = .next (t.rejectFetched f) := by
  simp only [Turn.run, h]

theorem step_of_input {s : State} {e : Input} {rest : List Input} (hsafe : s.assertFail = false)
    (h : s.nextInput = some (e, rest)) : step s = ((s.setScript rest).take e).run := by
  rw [step_eq_run hsafe, State.turn_of_input h]

/-- The vector of bank b is decoded to the trigger of bank b (R149). -/
theorem decode_vectorOf (b : Bank) : decode (.vector (vectorOf b)) = .ok (triggerOf b) :=
  match b with
  | 0 => rfl
  | 1 => rfl
  | 2 => rfl

theorem Turn.run_request (t : State) (b : Bank) : (Turn.fetched (.vector (vectorOf b)) t).run = exec (triggerOf b) t :=
  Turn.run_instruction t (decode_vectorOf b)

theorem exec_answers (i : Instr) (s : State) : ∃ t, exec i s = .next t := by
  obtain ⟨t, run, -⟩ := exec_port i s
  exact ⟨t, run⟩

theorem Turn.run_answers (u : Turn) : ∃ t, u.run = .next t := by
  cases u with
  | outside t => exact ⟨t, rfl⟩
  | fetched f t =>
    cases hd : decode f with
    | ok i =>
      rw [Turn.run_instruction t hd]
      exact exec_answers i t
    | error r => exact ⟨_, Turn.run_rejected t hd⟩

/-- A step from a state whose debug flag is clear answers a next state (R240, R243). -/
theorem step_answers {s : State} (h : s.assertFail = false) : ∃ t, step s = .next t := by
  rw [step_eq_run h]
  exact s.turn.run_answers

/-- Running what a command word asks for: the command, or the answer ILLEGAL. -/
theorem Turn.run_command_cases {w : Word} {u t : State} (h : (Turn.fetched (.command w) u).run = .next t) :
    (∃ i, encode i = .command w ∧ exec i u = .next t) ∨ t = u.respond .illegal 0 := by
  cases hd : decode (.command w) with
  | ok i => exact .inl ⟨i, encode_command_iff.2 hd, (Turn.run_instruction u hd).symm.trans h⟩
  | error r => exact .inr (Host.Outcome.next.inj ((Turn.run_rejected u hd).symm.trans h)).symm

/-- What a step is that answers a next state: an act from outside, a phase of a command, an illegal word's answer, or a
trigger that was requested. -/
theorem step_cases {s t : State} (h : step s = .next t) :
    s.sameBut t ∨
      (∃ u, s.sameBut u ∧ ((∃ i w, encode i = .command w ∧ exec i u = .next t) ∨ t = u.respond .illegal 0)) ∨
      ∃ b stray rest, s.nextInput = some (.request b stray, rest) ∧
        exec (triggerOf b) ((s.setScript rest).redrawStray b stray) = .next t := by
  obtain ⟨hsafe, -⟩ := step_next_cases h
  have command {u : State} {w : Word} (same : s.sameBut u) (run : (Turn.fetched (.command w) u).run = .next t) :
      ∃ u, s.sameBut u ∧ ((∃ i w, encode i = .command w ∧ exec i u = .next t) ∨ t = u.respond .illegal 0) := by
    obtain ⟨i, hw, run⟩ | illegal := Turn.run_command_cases run
    · exact ⟨u, same, .inl ⟨i, w, hw, run⟩⟩
    · exact ⟨u, same, .inr illegal⟩
  have sequencer {u : State} (same : s.sameBut u) (run : u.sequencerTurn.run = .next t) :
      s.sameBut t ∨
        ∃ u, s.sameBut u ∧ ((∃ i w, encode i = .command w ∧ exec i u = .next t) ∨ t = u.respond .illegal 0) := by
    obtain idle | ⟨c, -, busy⟩ := u.sequencerTurn_cases
    · rw [idle] at run
      cases run
      exact .inl same
    · rw [busy] at run
      exact .inr (command same run)
  cases hin : s.nextInput with
  | none =>
    rw [step_eq_run hsafe, State.turn_of_no_input hin] at h
    obtain outside | taken := sequencer rfl h
    · exact .inl outside
    · exact .inr (.inl taken)
  | some next =>
    obtain ⟨e, rest⟩ := next
    rw [step_of_input hsafe hin] at h
    cases e with
    | pins b v => cases h; exact .inl rfl
    | time now => cases h; exact .inl rfl
    | request b stray =>
      have run := (Turn.run_request ((s.setScript rest).redrawStray b stray) b).symm.trans h
      exact .inr (.inr ⟨b, stray, rest, rfl, run⟩)
    | command w => exact .inr (.inl (command (u := s.setScript rest) rfl h))
    | sequencer =>
      obtain outside | taken := sequencer (u := s.setScript rest) rfl h
      · exact .inl outside
      · exact .inr (.inl taken)

/-! ## The sample of a request -/

theorem getLsbD_pinBits (c : Config) (b : Bank) {i : Nat} (hi : i < 8) :
    (pinBits c b).getLsbD i = decide (i < bankWidth c b) := by
  rw [pinBits, BitVec.getLsbD_ofNat, Nat.testBit_two_pow_sub_one]
  simp [hi]

/-- The redrawn sample, bit by bit: the level where there is a pin, and the drawn value elsewhere (R49). -/
theorem getLsbD_redrawn (c : Config) (b : Bank) (levels stray : Byte) {i : Nat} (hi : i < 8) :
    ((levels &&& pinBits c b) ||| (stray &&& ~~~pinBits c b)).getLsbD i =
      if i < bankWidth c b then levels.getLsbD i else stray.getLsbD i := by
  simp only [BitVec.getLsbD_or, BitVec.getLsbD_and, BitVec.getLsbD_not, getLsbD_pinBits c b hi, hi]
  split <;> simp [*]

/-- Stray bits that are drawn as they stand change nothing. -/
theorem State.redrawStray_same (s : State) (b : Bank) : s.redrawStray b (s.samplePins b) = s := by
  have same : (s.samplePins b &&& pinBits s.cfg b) ||| (s.samplePins b &&& ~~~pinBits s.cfg b) = s.samplePins b := by
    apply BitVec.eq_of_getLsbD_eq
    intro i hi
    rw [getLsbD_redrawn s.cfg b _ _ hi, ite_self]
  rw [State.redrawStray, same]
  simp [State.setPinIn, State.samplePins]

/-- A vector number that decodes is that of a bank (R120, R149). -/
theorem bank_of_decoded_vector {v : BitVec 2} {i : Instr} (h : decode (.vector v) = .ok i) :
    ∃ b, v = vectorOf b ∧ bankOfVector v = some b := by
  have number : ∀ b : Bank, encode (triggerOf b) = .vector (vectorOf b) ∧ bankOfVector (vectorOf b) = some b := by decide
  have encoded := decode_vector_iff.1 h
  obtain ⟨w, hw⟩ | ⟨b, rfl⟩ := command_or_trigger i
  · cases hw.symm.trans encoded
  · obtain ⟨hvector, hbank⟩ := number b
    cases hvector.symm.trans encoded
    exact ⟨b, rfl, hbank⟩

theorem triggerOf_injective : ∀ {b c : Bank}, triggerOf b = triggerOf c → b = c := by decide

end Sys2Proof.Machine

namespace Sys2Proof
open Machine

/-- Settles O5: the words in no row are the ill-formed ones, and such a word decodes to no instruction. -/
theorem illegalWordIsAnsweredIllegal : Obligations.IllegalWordIsAnsweredIllegal := by
  refine ⟨no_row_iff_illFormed, by decide, fun w s rest hill hsafe hidle hscript => ?_⟩
  cases hd : decode (.command w) with
  | ok i =>
    have legal := (exists_decode_iff_wellFormed w).1 ⟨i, hd⟩
    rw [hill] at legal
    cases legal
  | error r =>
    have idle : (s.setScript rest).seq = .idle := hidle
    have illegalWord : responseWord .illegal 0 = 0x80000000 := by decide
    rw [step_of_input hsafe (State.nextInput_idle hidle hscript), State.take, Turn.run_rejected _ hd,
      State.rejectFetched, State.respond_idle _ _ _ idle, illegalWord]
    rfl

/-- Settles O6. -/
theorem stepRunsAcceptedCommand : Obligations.StepRunsAcceptedCommand := by
  intro s w i rest hsafe hidle hscript hd
  rw [step_of_input hsafe (State.nextInput_idle hidle hscript), State.take, Turn.run_instruction _ hd]
  rfl

/-- Settles O7: either way it is the sequencer's turn. -/
theorem stepRunsCommandInProgress : Obligations.StepRunsCommandInProgress := by
  intro s c i hsafe hbusy hd
  refine ⟨fun ws hscript => ?held, fun rest hscript => ?turn⟩
  case held =>
    have nothing : s.nextInput = none := by rw [State.nextInput_busy hbusy, hscript, firstOutside_commands]
    rw [step_eq_run hsafe, State.turn_of_no_input nothing, State.sequencerTurn_busy hbusy, Turn.run_instruction _ hd]
  case turn =>
    have next : s.nextInput = some (.sequencer, rest) := State.nextInput_outside hscript fun w h => by cases h
    have busy : (s.setScript rest).seq = .busy c := hbusy
    rw [step_of_input hsafe next, State.take, State.sequencerTurn_busy busy, Turn.run_instruction _ hd]
    rfl

/-- Settles O9: the request comes next, and its sample is redrawn bit by bit. -/
theorem stepRunsBankTrigger : Obligations.StepRunsBankTrigger := by
  intro s b stray rest hsafe hscript
  have next : s.nextInput = some (.request b stray, rest) := State.nextInput_outside hscript fun w h => by cases h
  refine ⟨(s.pinIn[b] &&& pinBits s.cfg b) ||| (stray &&& ~~~pinBits s.cfg b),
    fun i hi => getLsbD_redrawn s.cfg b s.pinIn[b] stray hi, ?_⟩
  rw [step_of_input hsafe next, State.take, Turn.run_request]
  rfl

/-- Settles O10: each of these inputs comes next and is no instruction. -/
theorem environmentMovesInputsOnly : Obligations.EnvironmentMovesInputsOnly := by
  intro s rest hsafe
  refine ⟨fun b v hscript => ?pins, fun t hscript => ?time, fun hidle hscript => ?turn, fun hidle hscript => ?nothing⟩
  case pins =>
    have next : s.nextInput = some (.pins b v, rest) := State.nextInput_outside hscript fun w h => by cases h
    rw [step_of_input hsafe next]
    rfl
  case time =>
    have next : s.nextInput = some (.time t, rest) := State.nextInput_outside hscript fun w h => by cases h
    rw [step_of_input hsafe next]
    rfl
  case turn =>
    have idle : (s.setScript rest).seq = .idle := hidle
    rw [step_of_input hsafe (State.nextInput_idle hidle hscript), State.take, State.sequencerTurn_idle idle]
    rfl
  case nothing =>
    have none : s.nextInput = none := by simp only [State.nextInput, hidle, hscript]
    rw [step_eq_run hsafe, State.turn_of_no_input none, State.sequencerTurn_idle hidle, Turn.run_outside]

/-- Settles O11: a step from any other state answers a next state. -/
theorem faultExactlyWhenAssertFailed : Obligations.FaultExactlyWhenAssertFailed := by
  intro s
  cases hflag : s.assertFail with
  | true => exact ⟨fun _ => rfl, fun _ => by rw [step, if_pos hflag]⟩
  | false =>
    obtain ⟨t, run⟩ := step_answers hflag
    refine ⟨fun h => ?_, fun h => by cases h⟩
    rw [run] at h
    cases h

/-- Settles O12: the presented word or request comes next, and taking it gives the state back. -/
theorem presentedWordRunsNext : Obligations.PresentedWordRunsNext := by
  intro s nbits w i hsafe hidle htable
  have hd : decode (tableFetched nbits w) = .ok i := by
    unfold decodeTableWord at htable
    split at htable
    · rename_i j hj
      cases htable
      exact hj
    · cases htable
  rw [State.withFetchWord]
  generalize tableFetched nbits w = f at hd
  cases f with
  | command cmd =>
    have safe : (s.present (.command cmd)).assertFail = false := hsafe
    have next : (s.present (.command cmd)).nextInput = some (.command cmd, s.script) := State.nextInput_idle rfl rfl
    have back : (s.present (.command cmd)).setScript s.script = s := by
      rw [State.present, ← hidle]
      rfl
    rw [step_of_input safe next, back, State.take, Turn.run_instruction _ hd]
  | vector v =>
    obtain ⟨b, rfl, hb⟩ := bank_of_decoded_vector hd
    have presented : s.present (.vector (vectorOf b)) = s.setScript (.request b (s.samplePins b) :: s.script) := by
      rw [State.present, hb]
    have next : (s.present (.vector (vectorOf b))).nextInput = some (.request b (s.samplePins b), s.script) := by
      rw [presented]
      exact State.nextInput_outside rfl fun w h => by cases h
    have safe : (s.present (.vector (vectorOf b))).assertFail = false := by
      rw [presented]
      exact hsafe
    have back : (s.present (.vector (vectorOf b))).setScript s.script = s := by
      rw [presented]
      rfl
    rw [step_of_input safe next, back, State.take, State.redrawStray_same, Turn.run_instruction _ hd]

/-- Settles O16. -/
theorem nothingStopsTheBlock : Obligations.NothingStopsTheBlock :=
  fun _ hs => step_answers hs.no_assert_fail

/-- Settles O53: what an instruction can do to the flag, and that a step which sets it runs a requested trigger. -/
theorem assertFailHasNoOtherSource : Obligations.AssertFailHasNoOtherSource := by
  refine ⟨exec_assertFail, fun s t hstep hafter => ?_⟩
  obtain ⟨hsafe, -⟩ := step_next_cases hstep
  have unset (h : t.assertFail = s.assertFail) : False := by
    rw [h, hsafe] at hafter
    cases hafter
  obtain outside | ⟨u, same, ⟨i, w, hw, run⟩ | rfl⟩ | ⟨b, stray, rest, hin, run⟩ := step_cases hstep
  · exact (unset (by rw [outside])).elim
  · obtain ⟨t', run', frame⟩ := exec_command_frame u hw
    cases run.symm.trans run'
    exact (unset (by rw [frame.assertFail, same])).elim
  · exact (unset (by rw [same]; rfl)).elim
  · obtain ⟨t', run', -, source⟩ := exec_assertFail (triggerOf b) ((s.setScript rest).redrawStray b stray)
    cases run.symm.trans run'
    obtain ⟨b', j, hb, hen, hdispatched, hunbound⟩ := source hafter hsafe
    obtain rfl := triggerOf_injective hb
    exact ⟨b, stray, rest, j, hin, hen, hdispatched, hunbound⟩

end Sys2Proof
end

section
/-! The script is no part of what an instruction does (20_memory.md R91): every operation gives the same state whatever
is still to come from outside, so a command word that is held makes no difference to the rest. -/

namespace Sys2Proof.Machine

/-! ## The shared operations -/

theorem State.ite_setScript (c : Prop) [Decidable c] (t u : State) (l : List Input) :
    (if c then t else u).setScript l = if c then t.setScript l else u.setScript l :=
  apply_ite (State.setScript · l) c t u

theorem State.attachBody_setScript (s : State) (l : List Input) (p : Pin) (h : Handle) :
    (s.setScript l).attachBody p h = (s.attachBody p h).setScript l := by
  cases hok : s.attachOk p h with
  | false => rw [(s.setScript l).attachBody_rejected p h hok, s.attachBody_rejected p h hok]
  | true =>
    rw [(s.setScript l).attachBody_accepted p h hok, s.attachBody_accepted p h hok]
    rfl

theorem State.detachBody_setScript (s : State) (l : List Input) (p : Pin) :
    (s.setScript l).detachBody p = (s.detachBody p).setScript l := by
  cases hp : validPin s.cfg p with
  | false => rw [(s.setScript l).detachBody_invalid p hp, s.detachBody_invalid p hp]
  | true =>
    rw [(s.setScript l).detachBody_valid p hp, s.detachBody_valid p hp]
    rfl

theorem State.pullUp_setScript (s : State) (l : List Input) (p : Pin) :
    (s.setScript l).pullUp p = (s.pullUp p).setScript l :=
  (State.ite_setScript (validPin s.cfg p = true) (s.setPullup p true) s l).symm

theorem State.begin_setScript (s : State) (l : List Input) (f : Fetched) (ph : Phase) :
    (s.setScript l).begin f ph = (s.begin f ph).setScript l := by
  cases f <;> rfl

theorem State.dispatch_setScript (s : State) (l : List Input) (p : Pin) (level : Bool) :
    (s.setScript l).dispatch p level = (s.dispatch p level).setScript l := by
  cases hv : s.lvalidAt p with
  | false =>
    rw [(s.setScript l).dispatch_unbound p level hv, s.dispatch_unbound p level hv]
    rfl
  | true =>
    cases he : handleIsExternal (s.listenerAt p) with
    | true =>
      rw [(s.setScript l).dispatch_external p level hv he, s.dispatch_external p level hv he]
      rfl
    | false =>
      rw [(s.setScript l).dispatch_decoder p level hv he, s.dispatch_decoder p level hv he]
      rfl

theorem State.dispatchAll_setScript (s : State) (l : List Input) (b : Bank) (cur : Byte) (bits : List Nat) :
    (s.setScript l).dispatchAll b cur bits = (s.dispatchAll b cur bits).setScript l := by
  induction bits generalizing s with
  | nil => rfl
  | cons i rest ih =>
    have first := s.dispatch_setScript l (pinAt s.cfg b i) (cur.getLsbD i)
    rw [State.dispatchAll, List.foldl_cons, State.setScript_cfg, first, ← State.dispatchAll, ih]
    rfl

theorem State.trig_setScript (s : State) (l : List Input) (b : Bank) :
    State.trig b (s.setScript l) = (s.trig b).setScript l := by
  rw [State.trig_eq, State.trig_eq, ← State.dispatchAll_setScript]
  rfl

/-! ## The instructions -/

theorem regAttachBody_setScript (s : State) (l : List Input) (h : Handle) (p : Pin) :
    regAttachBody h p (s.setScript l) = (regAttachBody h p s).setScript l := by
  rw [regAttachBody, regAttachBody, State.attachBody_setScript, State.ite_setScript]
  rfl

theorem regDetachBody_setScript (s : State) (l : List Input) (p : Pin) :
    regDetachBody p (s.setScript l) = (regDetachBody p s).setScript l := by
  rw [regDetachBody, State.detachBody_setScript]
  rfl

theorem decGetidBody_setScript (s : State) (l : List Input) (k : DecIdx) :
    decGetidBody k (s.setScript l) = (decGetidBody k s).setScript l := by
  rw [decGetidBody, decGetidBody, State.ite_setScript]
  rfl

theorem decAttachFirst_setScript (s : State) (l : List Input) (k : DecIdx) (pb pa : Pin) :
    decAttachFirst k pb pa (s.setScript l) = (decAttachFirst k pb pa s).setScript l := by
  rw [decAttachFirst, decAttachFirst, State.begin_setScript, State.ite_setScript]
  rfl

theorem decDetachFirst_setScript (s : State) (l : List Input) (k : DecIdx) :
    decDetachFirst k (s.setScript l) = (decDetachFirst k s).setScript l := by
  rw [decDetachFirst, decDetachFirst, State.begin_setScript, State.ite_setScript]
  rfl

theorem decAttachNext_setScript (s : State) (l : List Input) (k : DecIdx) (pb pa : Pin) (c : Command) :
    decAttachNext k pb pa c (s.setScript l) = (decAttachNext k pb pa c s).setScript l := by
  unfold decAttachNext
  cases c.phase with
  | dd1 => dsimp only; rw [State.detachBody_setScript]; rfl
  | dd2 => dsimp only; rw [State.detachBody_setScript]; rfl
  | a2 => dsimp only; rw [State.attachBody_setScript]; rfl
  | a3 => dsimp only; rw [State.attachBody_setScript]; rfl
  | a4 => dsimp only; rw [State.pullUp_setScript, State.pullUp_setScript]; rfl
  | a5 => dsimp only; rw [State.ite_setScript]; rfl
  | _ => rfl

theorem decDetachNext_setScript (s : State) (l : List Input) (k : DecIdx) (c : Command) :
    decDetachNext k c (s.setScript l) = (decDetachNext k c s).setScript l := by
  unfold decDetachNext
  cases c.phase with
  | d1 => dsimp only; rw [State.detachBody_setScript]; rfl
  | d2 => dsimp only; rw [State.detachBody_setScript]; rfl
  | _ => rfl

theorem State.onIdle_setScript {s : State} {l : List Input} {run : State → State}
    (h : run (s.setScript l) = (run s).setScript l) : (s.setScript l).onIdle run = (s.onIdle run).setScript l := by
  cases hseq : s.seq with
  | idle => rw [(s.setScript l).onIdle_idle run hseq, s.onIdle_idle run hseq, h]
  | busy c => rw [(s.setScript l).onIdle_busy run c hseq, s.onIdle_busy run c hseq]

theorem State.onPort_setScript {s : State} {l : List Input} (cmd : Fetched) {first : State → State}
    {next : Command → State → State} (hfirst : first (s.setScript l) = (first s).setScript l)
    (hnext : ∀ c, next c (s.setScript l) = (next c s).setScript l) :
    (s.setScript l).onPort cmd first next = (s.onPort cmd first next).setScript l := by
  cases hseq : s.seq with
  | idle => rw [(s.setScript l).onPort_idle cmd first next hseq, s.onPort_idle cmd first next hseq, hfirst]
  | busy c =>
    by_cases own : cmd = .command c.cmd
    · rw [(s.setScript l).onPort_own cmd first next c hseq own, s.onPort_own cmd first next c hseq own, hnext]
    · rw [(s.setScript l).onPort_held cmd first next c hseq own, s.onPort_held cmd first next c hseq own]

theorem State.admitTrigger_setScript (s : State) (l : List Input) (b : Bank) :
    (s.setScript l).admitTrigger b (State.trig b) = (s.admitTrigger b (State.trig b)).setScript l := by
  rw [State.admitTrigger, State.trig_setScript]
  rw [State.admitTrigger, State.ite_setScript]
  rfl

/-- What an instruction does, it does with any script, and it leaves the script (R91). -/
theorem exec_setScript {i : Instr} {s t : State} (l : List Input) (h : exec i s = .next t) :
    exec i (s.setScript l) = .next (t.setScript l) := by
  cases i with
  | regAttach hd pa =>
    cases h
    exact congrArg Host.Outcome.next (State.onIdle_setScript (regAttachBody_setScript s l hd pa))
  | regDetach pa =>
    cases h
    exact congrArg Host.Outcome.next (State.onIdle_setScript (regDetachBody_setScript s l pa))
  | decGetid k =>
    cases h
    exact congrArg Host.Outcome.next (State.onIdle_setScript (decGetidBody_setScript s l k))
  | decAttach k pb pa =>
    cases h
    exact congrArg Host.Outcome.next
      (State.onPort_setScript _ (decAttachFirst_setScript s l k pb pa) (decAttachNext_setScript s l k pb pa))
  | decDetach k =>
    cases h
    exact congrArg Host.Outcome.next
      (State.onPort_setScript _ (decDetachFirst_setScript s l k) (decDetachNext_setScript s l k))
  | trig0 => cases h; exact congrArg Host.Outcome.next (s.admitTrigger_setScript l 0)
  | trig1 => cases h; exact congrArg Host.Outcome.next (s.admitTrigger_setScript l 1)
  | trig2 => cases h; exact congrArg Host.Outcome.next (s.admitTrigger_setScript l 2)

theorem exec_keeps_script {i : Instr} {s t : State} (h : exec i s = .next t) : t.script = s.script := by
  obtain ⟨t', run, -, -, -, script⟩ := Sys2Proof.instructionsNeverWriteInputs i s
  cases h.symm.trans run
  exact script

/-! ## The step -/

/-- The same turn with another script to come. -/
def Turn.withScript (l : List Input) : Turn → Turn
  | .outside t => .outside (t.setScript l)
  | .fetched f t => .fetched f (t.setScript l)

/-- The state that a turn goes on from. -/
def Turn.state : Turn → State
  | .outside t => t
  | .fetched _ t => t

theorem Turn.run_withScript {u : Turn} {t : State} (l : List Input) (h : u.run = .next t) :
    (u.withScript l).run = .next (t.setScript l) ∧ t.script = u.state.script := by
  cases u with
  | outside v => cases h; exact ⟨rfl, rfl⟩
  | fetched f v =>
    cases hd : decode f with
    | ok i =>
      rw [Turn.run_instruction v hd] at h
      exact ⟨(Turn.run_instruction (v.setScript l) hd).trans (exec_setScript l h), exec_keeps_script h⟩
    | error r =>
      rw [Turn.run_rejected v hd] at h
      rw [Turn.withScript, Turn.run_rejected (v.setScript l) hd]
      cases h
      cases f <;> exact ⟨rfl, rfl⟩

theorem State.sequencerTurn_setScript (s : State) (l : List Input) :
    (s.setScript l).sequencerTurn = s.sequencerTurn.withScript l := by
  cases hseq : s.seq with
  | idle =>
    rw [State.sequencerTurn_idle hseq]
    exact State.sequencerTurn_idle hseq
  | busy c =>
    rw [State.sequencerTurn_busy hseq]
    exact State.sequencerTurn_busy hseq

/-- An input does the same whatever else is to come. -/
theorem State.take_setScript (s : State) (l : List Input) (e : Input) :
    (s.setScript l).take e = (s.take e).withScript l := by
  cases e with
  | sequencer => exact s.sequencerTurn_setScript l
  | pins b v => rfl
  | time t => rfl
  | request b stray => rfl
  | command w => rfl

theorem State.take_script (s : State) (e : Input) : (s.take e).state.script = s.script := by
  cases e with
  | sequencer =>
    obtain h | ⟨c, -, h⟩ := s.sequencerTurn_cases
    · rw [State.take, h]; rfl
    · rw [State.take, h]; rfl
  | pins b v => rfl
  | time t => rfl
  | request b stray => rfl
  | command w => rfl

end Sys2Proof.Machine

namespace Sys2Proof
open Machine

/-- Settles O8: the same input comes next with and without the held word, and does the same with either script. -/
theorem heldCommandIsNotLost : Obligations.HeldCommandIsNotLost := by
  intro s c w e rest hsafe hbusy hscript he
  have without : ({ s with script := e :: rest } : State).nextInput = some (e, rest) := State.nextInput_outside rfl he
  have withHeld : s.nextInput = some (e, .command w :: rest) := by
    rw [State.nextInput_busy hbusy, hscript, firstOutside_held w rest he]
  obtain ⟨t, run⟩ := ((s.setScript rest).take e).run_answers
  obtain ⟨runHeld, script⟩ := Turn.run_withScript (.command w :: rest) run
  rw [← State.take_setScript] at runHeld
  refine ⟨t, ?_, script.trans ((s.setScript rest).take_script e), ?_⟩
  · exact (step_of_input (s := { s with script := e :: rest }) hsafe without).trans run
  · rw [step_of_input hsafe withHeld]
    exact runHeld

end Sys2Proof
end

section
/-! What every step keeps: the invariants (10_state.md R60), the output streams as far as they go (R53, R269), and a
credential that was read until the next promotion (42_wiegand_decoder.md R225 (b)). -/

namespace Sys2Proof.Machine

/-! ## Writes that the invariants do not speak of -/

/-- The environment's inputs and the script are in no invariant. -/
theorem Inv.of_sameBut {s t : State} (hs : Inv s) (h : s.sameBut t) : Inv t := by
  rw [h]
  exact { hs with }

theorem Inv.setPrev {s : State} (hs : Inv s) (b : Bank) (v : Byte) : Inv (s.setPrev b v) := { hs with }

/-- A valid pin is pulled up (phase A4 of R208). -/
theorem Inv.pullUp {s : State} (hs : Inv s) (p : Pin) : Inv (s.pullUp p) := by
  unfold State.pullUp
  split
  case isFalse => exact hs
  case isTrue hp =>
    have beyond : NoPinBeyondN (s.setPullup p true) := by
      intro q hq
      have other : p ≠ q := by
        rintro rfl
        exact Bool.false_ne_true (hq.symm.trans hp)
      simpa [other] using hs.no_pin_beyond_n q hq
    exact { hs with no_pin_beyond_n := beyond }

/-! ## The sequencer and the responses -/

theorem responseLegal_responseWord (st : Status) (data : BitVec 26) : responseLegal (responseWord st data) = true := by
  obtain ⟨status, zero⟩ := responseWord_layout st data
  rw [responseLegal, status, zero]
  simpa using statusCode_ne_three st

/-- A response is legal and leaves the sequencer idle (R118). -/
theorem Inv.respond {s : State} (hs : Inv s) (st : Status) (data : BitVec 26) : Inv (s.respond st data) := by
  have responses : (s.respond st data).resp.all responseLegal = true := by
    rw [State.respond_eq, List.all_append, hs.responses_legal, List.all_cons, responseLegal_responseWord]
    rfl
  exact { hs with sequencer_legal := rfl, responses_legal := responses }

theorem Inv.setSeq {s : State} (hs : Inv s) {c : Command} (h : commandInProgress s.cfg c = true) :
    Inv (s.setSeq (.busy c)) :=
  { hs with sequencer_legal := h }

theorem commandInProgress_decAttach {cfg : Config} {c : Command} {k : DecIdx} {pb pa : Pin}
    (own : encode (.decAttach k pb pa) = .command c.cmd) :
    commandInProgress cfg c = (validDecoder cfg k && (c.phase != .d1 && c.phase != .d2 && c.phase != .d3)) := by
  have decoded : decodeCommand c.cmd = .ok (.decAttach k pb pa) := encode_command_iff.1 own
  simp only [commandInProgress, decoded]

theorem commandInProgress_decDetach {cfg : Config} {c : Command} {k : DecIdx}
    (own : encode (.decDetach k) = .command c.cmd) :
    commandInProgress cfg c = (validDecoder cfg k && (c.phase == .d1 || c.phase == .d2 || c.phase == .d3)) := by
  have decoded : decodeCommand c.cmd = .ok (.decDetach k) := encode_command_iff.1 own
  simp only [commandInProgress, decoded]

theorem Inv.commandInProgress {s : State} (hs : Inv s) {c : Command} (hbusy : s.seq = .busy c) :
    commandInProgress s.cfg c = true := by
  have legal := hs.sequencer_legal
  rwa [sequencerLegal, hbusy] at legal

/-! ## The decoder commands -/

/-- An Idle decoder with no credential is within the bounds. -/
theorem Decoder.fits_of_empty {d : Decoder} (hcount : d.bitcnt = 0) (hacc : d.acc = 0) (hcred : d.cred = 0) : d.Fits := by
  rw [Decoder.Fits, hcount, hacc, hcred]
  decide

section
variable {s : State} {k : DecIdx}

theorem Inv.unbindDecoder (hs : Inv s) (hk : validDecoder s.cfg k = true) : Inv (s.unbindDecoder k) :=
  s.setDec_keeps_inv k _ hs (Decoder.fits_of_empty rfl rfl rfl) hk

theorem Inv.resetDecoder (hs : Inv s) (hk : validDecoder s.cfg k = true) : Inv (s.resetDecoder k) :=
  s.setDec_keeps_inv k _ hs (Decoder.fits_of_empty rfl rfl rfl) hk

theorem Inv.bindDecoder (hs : Inv s) (hk : validDecoder s.cfg k = true) (pa pb : Pin) : Inv (s.bindDecoder k pa pb) :=
  s.setDec_keeps_inv k _ hs (hs.decoder_fits k) hk

theorem decGetidBody_keeps_inv (hs : Inv s) : Inv (decGetidBody k s) := by
  unfold decGetidBody
  split
  case isTrue hk =>
    have fits : ((s.decAt k).resetCompleted).Fits := ⟨hs.count_below_width k, hs.accumulator_fits k, by simp⟩
    exact (s.setDec_keeps_inv k _ hs fits hk).respond _ _
  case isFalse => exact hs.respond _ _

theorem decAttachFirst_keeps_inv (hs : Inv s) (pb pa : Pin) : Inv (decAttachFirst k pb pa s) := by
  unfold decAttachFirst
  split
  case isTrue hk =>
    refine hs.setSeq ?_
    rw [commandInProgress_decAttach (k := k) (pb := pb) (pa := pa) rfl, hk]
    cases (s.decAt k).attached <;> rfl
  case isFalse => exact hs.respond _ _

theorem decDetachFirst_keeps_inv (hs : Inv s) : Inv (decDetachFirst k s) := by
  unfold decDetachFirst
  split
  case isTrue hk =>
    refine hs.setSeq ?_
    rw [commandInProgress_decDetach (k := k) rfl, hk]
    cases (s.decAt k).attached <;> rfl
  case isFalse => exact hs.respond _ _

/-- The later phases of DEC.ATTACH: each keeps the invariants, and goes on to a phase of its own (R208). -/
theorem decAttachNext_keeps_inv {c : Command} {pb pa : Pin} (hs : Inv s) (hbusy : s.seq = .busy c)
    (own : encode (.decAttach k pb pa) = .command c.cmd) : Inv (decAttachNext k pb pa c s) := by
  have running := hs.commandInProgress hbusy
  rw [commandInProgress_decAttach own, Bool.and_eq_true] at running
  obtain ⟨hk, -⟩ := running
  have goesOn {t : State} (ht : Inv t) (hcfg : t.cfg = s.cfg) (c' : Command) (hcmd : c'.cmd = c.cmd) (ph : Phase)
      (hph : (ph != .d1 && ph != .d2 && ph != .d3) = true) : Inv (t.goto c' ph) := by
    have ownNext : encode (.decAttach k pb pa) = .command { c' with phase := ph }.cmd :=
      own.trans (congrArg Fetched.command hcmd.symm)
    refine ht.setSeq ?_
    rw [commandInProgress_decAttach ownNext, hcfg, hk, hph]
    rfl
  unfold decAttachNext
  cases c.phase with
  | dd1 => exact goesOn (s.detachBody_keeps_inv _ hs) (s.detachBody_cfg _) c rfl .dd2 rfl
  | dd2 => exact goesOn (s.detachBody_keeps_inv _ hs) (s.detachBody_cfg _) c rfl .dd3 rfl
  | dd3 => exact goesOn (hs.unbindDecoder hk) rfl c rfl .a1 rfl
  | a1 => exact goesOn (hs.bindDecoder hk pa pb) rfl c rfl .a2 rfl
  | a2 =>
    exact goesOn (s.attachBody_keeps_inv pa _ hs) (s.attachBody_cfg pa _)
      { c with ok0 := s.attachOk pa (decoderHandle k) } rfl .a3 rfl
  | a3 =>
    exact goesOn (s.attachBody_keeps_inv pb _ hs) (s.attachBody_cfg pb _)
      { c with ok1 := s.attachOk pb (decoderHandle k) } rfl .a4 rfl
  | a4 =>
    have sameCfg (t : State) (p : Pin) : (t.pullUp p).cfg = t.cfg := by unfold State.pullUp; split <;> rfl
    exact goesOn ((hs.pullUp pa).pullUp pb) ((sameCfg _ pb).trans (sameCfg s pa))
      { c with t0 := s.now } rfl .a5 rfl
  | a5 =>
    dsimp only
    split
    · exact goesOn hs rfl c rfl .a6 rfl
    · exact hs
  | a6 => exact (hs.resetDecoder hk).respond _ _
  | d1 => exact hs
  | d2 => exact hs
  | d3 => exact hs

/-- The later phases of DEC.DETACH (R216). -/
theorem decDetachNext_keeps_inv {c : Command} (hs : Inv s) (hbusy : s.seq = .busy c)
    (own : encode (.decDetach k) = .command c.cmd) : Inv (decDetachNext k c s) := by
  have running := hs.commandInProgress hbusy
  rw [commandInProgress_decDetach own, Bool.and_eq_true] at running
  obtain ⟨hk, -⟩ := running
  have goesOn (p : Pin) (ph : Phase) (hph : (ph == .d1 || ph == .d2 || ph == .d3) = true) :
      Inv ((s.detachBody p).goto c ph) := by
    have ownNext : encode (.decDetach k) = .command { c with phase := ph }.cmd := own
    refine (s.detachBody_keeps_inv p hs).setSeq ?_
    rw [commandInProgress_decDetach ownNext, State.detachBody_cfg, hk, hph]
    rfl
  obtain ⟨-, h⟩ | ⟨-, h⟩ | ⟨-, h⟩ | h := decDetachNext_cases k c s <;> rw [h]
  · exact goesOn _ .d2 rfl
  · exact goesOn _ .d3 rfl
  · exact (hs.unbindDecoder hk).respond _ _
  · exact hs

theorem onIdle_keeps_inv {run : State → State} (hs : Inv s) (hrun : Inv (run s)) : Inv (s.onIdle run) := by
  obtain held | ran := s.onIdle_cases run
  · rwa [held]
  · rwa [ran]

theorem onPort_keeps_inv {cmd : Fetched} {first : State → State} {next : Command → State → State} (hs : Inv s)
    (hfirst : Inv (first s)) (hnext : ∀ c, s.seq = .busy c → cmd = .command c.cmd → Inv (next c s)) :
    Inv (s.onPort cmd first next) := by
  cases hseq : s.seq with
  | idle => rwa [s.onPort_idle cmd first next hseq]
  | busy c =>
    by_cases own : cmd = .command c.cmd
    · rw [s.onPort_own cmd first next c hseq own]
      exact hnext c hseq own
    · rwa [s.onPort_held cmd first next c hseq own]

end

/-! ## The triggers -/

/-- Dispatching active bits keeps the invariants: each has a registered pin (R153). -/
theorem State.dispatchAll_keeps_inv {s : State} {b : Bank} {cur : Byte} {l : List Nat} (hs : Inv s)
    (hactive : ∀ i ∈ l, (s.maskAt b).getLsbD i = true) : Inv (s.dispatchAll b cur l) := by
  induction l generalizing s with
  | nil => exact hs
  | cons i rest ih =>
    have registered := hs.active_bit_registered b i (hactive i List.mem_cons_self)
    refine ih (s.dispatch_keeps_inv _ (cur.getLsbD i) hs registered) fun j hj => ?_
    rw [State.maskAt, State.dispatch_mask]
    exact hactive j (List.mem_cons_of_mem i hj)

theorem State.trig_keeps_inv {s : State} (b : Bank) (hs : Inv s) : Inv (s.trig b) := by
  rw [State.trig_eq]
  have active : ∀ i ∈ dispatchedBits s b, (s.maskAt b).getLsbD i = true := fun i => active_of_mem_dispatchedBits
  exact State.dispatchAll_keeps_inv (hs.setPrev b _) active

theorem State.admitTrigger_keeps_inv {s : State} (b : Bank) (hs : Inv s) : Inv (s.admitTrigger b (State.trig b)) := by
  unfold State.admitTrigger
  split
  · exact State.trig_keeps_inv b hs
  · exact hs

/-! ## Every instruction and every step -/

theorem exec_keeps_inv {i : Instr} {s t : State} (hs : Inv s) (h : exec i s = .next t) : Inv t := by
  cases i with
  | regAttach hd pa =>
    cases h
    refine onIdle_keeps_inv hs ?_
    unfold regAttachBody
    split
    · exact (s.attachBody_keeps_inv pa hd hs).respond _ _
    · exact hs.respond _ _
  | regDetach pa => cases h; exact onIdle_keeps_inv hs ((s.detachBody_keeps_inv pa hs).respond _ _)
  | decGetid k => cases h; exact onIdle_keeps_inv hs (decGetidBody_keeps_inv hs)
  | decAttach k pb pa =>
    cases h
    exact onPort_keeps_inv hs (decAttachFirst_keeps_inv hs pb pa) fun c => decAttachNext_keeps_inv hs
  | decDetach k =>
    cases h
    exact onPort_keeps_inv hs (decDetachFirst_keeps_inv hs) fun c => decDetachNext_keeps_inv hs
  | trig0 => cases h; exact State.admitTrigger_keeps_inv 0 hs
  | trig1 => cases h; exact State.admitTrigger_keeps_inv 1 hs
  | trig2 => cases h; exact State.admitTrigger_keeps_inv 2 hs

theorem Inv.rejectFetched {s : State} (hs : Inv s) (f : Fetched) : Inv (s.rejectFetched f) := by
  cases f with
  | command w => exact hs.respond _ _
  | vector v => exact hs

theorem step_keeps_inv {s t : State} (hs : Inv s) (h : step s = .next t) : Inv t := by
  obtain ⟨-, outside | ⟨f, u, same, ⟨i, -, run⟩ | ⟨-, rfl⟩⟩⟩ := step_next_cases h
  · exact hs.of_sameBut outside
  · exact exec_keeps_inv (hs.of_sameBut same) run
  · exact (hs.of_sameBut same).rejectFetched f

/-! ## Power-on -/

theorem powerOn_inv (cfg : Config) (pins : Vector Byte 3) (now : Time) : Inv (State.powerOn cfg pins now) where
  mask_matches_table p _ := by simp
  enabled_iff_active b := by simp
  no_stray_mask_bit b i _ := by simp
  handles_valid p h := by simp at h
  count_below_width k := by simp [Decoder.reset]
  accumulator_fits k := by simp [Decoder.reset]
  credential_fits k := by simp [Decoder.reset]
  empty_entry_is_zero p _ := by simp
  no_pin_beyond_n p _ := by simp
  no_decoder_beyond_num_dec k _ := by simp
  sequencer_legal := rfl
  responses_legal := rfl
  no_assert_fail := rfl

/-! ## The output streams -/

/-- An instruction appends to `EVT` and to the responses, and takes nothing back. -/
theorem exec_appends {i : Instr} {s t : State} (h : exec i s = .next t) :
    (∃ e, t.evt = s.evt ++ e) ∧ ∃ r, t.resp = s.resp ++ r := by
  constructor
  case left =>
    obtain ⟨w, hw⟩ | ⟨b, rfl⟩ := command_or_trigger i
    · obtain ⟨t', run, frame⟩ := exec_command_frame s hw
      cases h.symm.trans run
      exact ⟨[], by rw [frame.evt, List.append_nil]⟩
    · cases hen : s.trigEnAt b with
      | false =>
        cases h.symm.trans (exec_trigger_refused hen)
        exact ⟨[], (List.append_nil _).symm⟩
      | true =>
        cases h.symm.trans (exec_trigger_admitted hen)
        exact ⟨_, s.trig_evt b⟩
  case right =>
    obtain ⟨t', run, ⟨kept, -⟩ | ⟨st, data, placed, -⟩⟩ := exec_port i s
    · cases h.symm.trans run
      exact ⟨[], by rw [kept, List.append_nil]⟩
    · cases h.symm.trans run
      exact ⟨_, placed⟩

/-! ## A credential that was read -/

/-- What interrupt context does to a credential: nothing, or a promotion at the present time, which the age of the last
one allows (R198, R201). -/
def Decoder.Completes (tSt now : Time) (d e : Decoder) : Prop :=
  e.cred = d.cred ∧ e.tcred = d.tcred ∨ exceeds now d.tcred tSt = true ∧ e.tcred = now

theorem Decoder.Completes.trans {tSt now : Time} {d e f : Decoder} (h : d.Completes tSt now e)
    (h' : e.Completes tSt now f) : d.Completes tSt now f := by
  obtain ⟨cred, tcred⟩ | ⟨old, tcred⟩ := h
  · rwa [Decoder.Completes, cred, tcred] at h'
  · obtain ⟨-, tcred'⟩ | ⟨-, tcred'⟩ := h'
    · exact .inr ⟨old, tcred'.trans tcred⟩
    · exact .inr ⟨old, tcred'⟩

theorem Decoder.handle_completes (d : Decoder) (tRd tSt now : Time) (p : Pin) (level : Bool) :
    d.Completes tSt now (d.handle tRd tSt now p level) := by
  obtain h | ⟨-, -, ⟨-, h⟩ | ⟨-, -, h⟩⟩ := d.handle_cases tRd tSt now p level <;> rw [h]
  · exact .inl ⟨rfl, rfl⟩
  · exact d.shiftIn_completed_cases tRd tSt now false
  · exact d.shiftIn_completed_cases tRd tSt now true

theorem State.trig_completes (b : Bank) (s : State) (k : DecIdx) :
    (s.decAt k).Completes s.cfg.tSt s.time ((s.trig b).decAt k) := by
  rw [State.trig_decAt]
  refine List.foldlRecOn (motive := (s.decAt k).Completes s.cfg.tSt s.time) (dispatchedBits s b) _ (.inl ⟨rfl, rfl⟩)
    fun d hd i _ => ?_
  obtain h | h := s.handled_cases k b s.pinIn[b] d i <;> rw [h]
  · exact hd
  · exact hd.trans (d.handle_completes _ _ _ _ _)

/-- A decoder with no credential has none after an instruction that promotes none. -/
theorem exec_keeps_empty {i : Instr} {s t : State} {k : DecIdx} (h : exec i s = .next t)
    (hempty : (s.decAt k).cred = 0) (htcred : (t.decAt k).tcred = (s.decAt k).tcred) : (t.decAt k).cred = 0 := by
  obtain ⟨w, hw⟩ | ⟨b, rfl⟩ := command_or_trigger i
  · obtain ⟨t', run, frame⟩ := exec_command_frame s hw
    cases h.symm.trans run
    obtain kept | cleared := frame.credentials k
    · exact kept.trans hempty
    · exact cleared
  · cases hen : s.trigEnAt b with
    | false => cases h.symm.trans (exec_trigger_refused hen); exact hempty
    | true =>
      cases h.symm.trans (exec_trigger_admitted hen)
      obtain ⟨kept, -⟩ | ⟨old, promoted⟩ := s.trig_completes b k
      · exact kept.trans hempty
      · exact absurd (promoted.symm.trans htcred) (ne_of_exceeds old)

theorem exec_keeps_cfg {i : Instr} {s t : State} (h : exec i s = .next t) : t.cfg = s.cfg := by
  obtain ⟨t', run, cfg, -⟩ := Sys2Proof.instructionsNeverWriteInputs i s
  cases h.symm.trans run
  exact cfg

/-- A step keeps the parameters, and an empty credential that it does not promote. -/
theorem step_keeps_empty {s t : State} {k : DecIdx} (h : step s = .next t) (hempty : (s.decAt k).cred = 0)
    (htcred : (t.decAt k).tcred = (s.decAt k).tcred) : t.cfg = s.cfg ∧ (t.decAt k).cred = 0 := by
  obtain ⟨-, outside | ⟨f, u, same, taken⟩⟩ := step_next_cases h
  · rw [outside]
    exact ⟨rfl, hempty⟩
  · have decSame : u.decAt k = s.decAt k := by rw [same]; rfl
    have cfgSame : u.cfg = s.cfg := by rw [same]
    rw [← decSame] at hempty htcred
    obtain ⟨i, -, run⟩ | ⟨-, rfl⟩ := taken
    · exact ⟨(exec_keeps_cfg run).trans cfgSame, exec_keeps_empty run hempty htcred⟩
    · cases f with
      | command w => exact ⟨cfgSame, hempty⟩
      | vector v => exact ⟨cfgSame, hempty⟩

/-- So does a run of which no step promotes one. -/
theorem stepTimes_keeps_empty {n : Nat} {s u : State} {k : DecIdx} (h : stepTimes n s = .next u)
    (hempty : (s.decAt k).cred = 0)
    (htcred : ∀ m v, m ≤ n → stepTimes m s = .next v → (v.decAt k).tcred = (s.decAt k).tcred) :
    u.cfg = s.cfg ∧ (u.decAt k).cred = 0 := by
  induction n generalizing s with
  | zero => cases h; exact ⟨rfl, hempty⟩
  | succ n ih =>
    obtain ⟨t, first, rest⟩ := stepTimes_succ_next h
    have here : (t.decAt k).tcred = (s.decAt k).tcred := htcred 1 t (by omega) (by rw [stepTimes_succ 0 first]; rfl)
    obtain ⟨cfg, empty⟩ := step_keeps_empty first hempty here
    have later : ∀ m v, m ≤ n → stepTimes m t = .next v → (v.decAt k).tcred = (t.decAt k).tcred := by
      intro m v hm hv
      rw [here]
      exact htcred (m + 1) v (by omega) (by rw [stepTimes_succ m first, hv])
    obtain ⟨cfg', empty'⟩ := ih rest empty later
    exact ⟨cfg'.trans cfg, empty'⟩

end Sys2Proof.Machine

namespace Sys2Proof
open Machine

/-- Settles O14: power-on, of which State.reset is one. -/
theorem invariantsHoldAtReset : Obligations.InvariantsHoldAtReset :=
  ⟨powerOn_inv, powerOn_inv _ _ _⟩

/-- Settles O15: what a step can be, and that every instruction keeps the invariants. -/
theorem everyStepKeepsInvariants : Obligations.EveryStepKeepsInvariants :=
  fun _ _ => step_keeps_inv

/-- Settles O50: an act from outside shows nothing, an instruction appends, an illegal word is answered. -/
theorem outputStreamsOnlyGrow : Obligations.OutputStreamsOnlyGrow := by
  intro s t h
  have nothing {α : Type} (l : List α) : ∃ r, l = l ++ r := ⟨[], (List.append_nil l).symm⟩
  obtain ⟨-, outside | ⟨f, u, same, taken⟩⟩ := step_next_cases h
  · rw [outside]
    exact ⟨nothing _, nothing _⟩
  · have evtSame : u.evt = s.evt := by rw [same]
    have respSame : u.resp = s.resp := by rw [same]
    rw [← evtSame, ← respSame]
    obtain ⟨i, -, run⟩ | ⟨-, rfl⟩ := taken
    · exact exec_appends run
    · cases f with
      | command w => exact ⟨nothing _, _, rfl⟩
      | vector v => exact ⟨nothing _, nothing _⟩

/-- Settles O55: DEC.GETID leaves no credential, and the run after it none either. -/
theorem getidAfterNoPromotionReturnsZero : Obligations.GetidAfterNoPromotionReturnsZero := by
  intro s k hidle hk
  obtain ⟨-, existing⟩ := getidReturnsAndConsumes.2 s k hidle
  refine ⟨_, existing hk, fun l n u run htcred hfree => ?_⟩
  obtain ⟨cfg, empty⟩ := stepTimes_keeps_empty run (by simp [State.decAt]) htcred
  exact exec_decGetid_empty hfree (by rw [cfg]; exact hk) empty

end Sys2Proof
end

section
/-! Whole reads: SHIFT_IN of one bit after the other (42_wiegand_decoder.md section 7). -/

namespace Sys2Proof.Machine

/-! ## Bits one after the other -/

@[simp] theorem Decoder.feed_nil (tRd tSt : Time) (d : Decoder) : d.feed tRd tSt [] = d := rfl

@[simp] theorem Decoder.feed_cons (tRd tSt : Time) (d : Decoder) (e : Time × Bool) (rest : List (Time × Bool)) :
    d.feed tRd tSt (e :: rest) = (d.shiftIn tRd tSt e.1 e.2).feed tRd tSt rest := rfl

theorem Decoder.feed_append (tRd tSt : Time) (d : Decoder) (l l' : List (Time × Bool)) :
    d.feed tRd tSt (l ++ l') = (d.feed tRd tSt l).feed tRd tSt l' := by
  induction l generalizing d with
  | nil => rfl
  | cons e rest ih => exact ih _

/-- The number that bits form when they follow the bits of n (R82, R200). -/
def bitsAfter (n : Nat) (bits : List Bool) : Nat := bits.foldl (fun n b => 2 * n + b.toNat) n

theorem bitsValue_eq (bits : List Bool) : bitsValue bits = bitsAfter 0 bits := rfl

theorem bitsAfter_concat (n : Nat) (bits : List Bool) (b : Bool) :
    bitsAfter n (bits ++ [b]) = 2 * bitsAfter n bits + b.toNat := by
  simp [bitsAfter]

/-! ## Timeouts -/

section
variable {d : Decoder} {tRd now : Time}

/-- After a gap above `T_RD` nothing is kept (R198). -/
theorem Decoder.kept_of_gap (h : tRd < now - d.tlast) : d.countKept tRd now = 0 ∧ d.accKept tRd now = 0 := by
  have stalled : exceeds now d.tlast tRd = true := decide_eq_true h
  rw [Decoder.countKept, Decoder.accKept, if_pos stalled, if_pos stalled]
  exact ⟨rfl, rfl⟩

/-- Within `T_RD` everything is kept. -/
theorem Decoder.kept_of_within (h : elapsed now d.tlast ≤ tRd) :
    d.countKept tRd now = d.bitcnt ∧ d.accKept tRd now = d.acc := by
  have going : ¬exceeds now d.tlast tRd = true := by simpa [exceeds] using h
  rw [Decoder.countKept, Decoder.accKept, if_neg going, if_neg going]
  exact ⟨rfl, rfl⟩

/-- An Idle decoder has nothing to lose. -/
theorem Decoder.kept_of_idle (hcount : d.bitcnt = 0) (hacc : d.acc = 0) :
    d.countKept tRd now = 0 ∧ d.accKept tRd now = 0 := by
  rw [Decoder.countKept, Decoder.accKept, hcount, hacc, ite_self, ite_self]
  exact ⟨rfl, rfl⟩

theorem Decoder.countKept_le : (d.countKept tRd now).toNat ≤ d.bitcnt.toNat := by
  unfold Decoder.countKept
  split
  · exact Nat.zero_le _
  · exact le_rfl

end

theorem toNat_count_succ {c : BitVec 5} (h : c.toNat ≤ 24) : (c + 1).toNat = c.toNat + 1 := by
  rw [BitVec.toNat_add]
  simp
  omega

theorem count_succ_ne_width {c : BitVec 5} (h : c.toNat ≤ 24) : c + 1 ≠ 26 := by
  intro full
  have counted := toNat_count_succ h
  rw [full] at counted
  simp at counted
  omega

/-- Bit after bit within `T_RD`, up to the last one. -/
theorem gapsWithin_concat {tRd : Time} {e last : Time × Bool} {rest : List (Time × Bool)}
    (h : gapsWithin tRd (e :: rest ++ [last]) = true) :
    gapsWithin tRd (e :: rest) = true ∧
      elapsed last.1 ((e :: rest).getLast (List.cons_ne_nil e rest)).1 ≤ tRd := by
  induction rest generalizing e with
  | nil => exact ⟨rfl, by simpa [gapsWithin] using h⟩
  | cons e' rest ih =>
    have both : (decide (elapsed e'.1 e.1 ≤ tRd) && gapsWithin tRd (e' :: rest ++ [last])) = true := h
    rw [Bool.and_eq_true] at both
    obtain ⟨gap, later⟩ := both
    obtain ⟨gaps, final⟩ := ih later
    refine ⟨?_, final⟩
    rw [gapsWithin, gap, gaps]
    rfl

/-! ## Reads that are not complete -/

/-- A bit that is not the 26th completes nothing (R198). -/
theorem Decoder.shiftIn_short {d : Decoder} {tRd now : Time} (tSt : Time) (bit : Bool)
    (h : (d.countKept tRd now).toNat ≤ 24) :
    (d.shiftIn tRd tSt now bit).bitcnt.toNat = (d.countKept tRd now).toNat + 1 ∧
      (d.shiftIn tRd tSt now bit).cred = d.cred ∧ (d.shiftIn tRd tSt now bit).tcred = d.tcred := by
  rw [d.shiftIn_incomplete tRd tSt now bit (count_succ_ne_width h)]
  exact ⟨toNat_count_succ h, rfl, rfl⟩

/-- Bits that cannot make up 26 complete nothing. -/
theorem Decoder.feed_short {tRd : Time} (tSt : Time) {d : Decoder} {e : Time × Bool} {rest : List (Time × Bool)}
    (h : (d.countKept tRd e.1).toNat + (e :: rest).length ≤ 25) :
    (d.feed tRd tSt (e :: rest)).cred = d.cred ∧ (d.feed tRd tSt (e :: rest)).tcred = d.tcred := by
  induction rest generalizing d e with
  | nil =>
    obtain ⟨-, kept⟩ := d.shiftIn_short tSt e.2 (Nat.le_of_succ_le_succ h)
    exact kept
  | cons e' rest ih =>
    simp only [List.length_cons] at h ih
    obtain ⟨count, cred, tcred⟩ := d.shiftIn_short tSt e.2 (tRd := tRd) (now := e.1) (by omega)
    have atMost := (d.shiftIn tRd tSt e.1 e.2).countKept_le (tRd := tRd) (now := e'.1)
    obtain ⟨cred', tcred'⟩ := ih (d := d.shiftIn tRd tSt e.1 e.2) (e := e') (by omega)
    rw [Decoder.feed_cons, cred', tcred']
    exact ⟨cred, tcred⟩

/-- The bits in progress are n in number and form the value v; the last of them came at time t. -/
structure Decoder.Holds (d : Decoder) (n v : Nat) (t : Time) : Prop where
  count : d.bitcnt.toNat = n
  value : d.acc.toNat = v
  last : d.tlast = t
  fits : v < 2 ^ n

/-- The accumulator with one more bit, as a number (R200). -/
theorem Decoder.accWith_toNat {d : Decoder} {tRd now : Time} {n v : Nat} (bit : Bool) (hn : n ≤ 25)
    (hv : (d.accKept tRd now).toNat = v) (hfits : v < 2 ^ n) : (d.accWith tRd now bit).toNat = 2 * v + bit.toNat := by
  have small : v < 2 ^ 25 := lt_of_lt_of_le hfits (Nat.pow_le_pow_right (by omega) hn)
  rw [Decoder.accWith, toNat_shift_in _ _ (hv ▸ small), hv]

theorem Decoder.shiftIn_holds {d : Decoder} {tRd now : Time} {n v : Nat} (tSt : Time) (bit : Bool)
    (hcount : (d.countKept tRd now).toNat = n) (hvalue : (d.accKept tRd now).toNat = v) (hfits : v < 2 ^ n)
    (hn : n ≤ 24) : (d.shiftIn tRd tSt now bit).Holds (n + 1) (2 * v + bit.toNat) now := by
  have bound : 2 * v + bit.toNat < 2 ^ (n + 1) := by
    have bit_le := bit.toNat_le
    rw [Nat.pow_succ]
    omega
  have room : (d.countKept tRd now).toNat ≤ 24 := hcount ▸ hn
  rw [d.shiftIn_incomplete tRd tSt now bit (count_succ_ne_width room)]
  exact ⟨by rw [toNat_count_succ room, hcount], Decoder.accWith_toNat bit (by omega) hvalue hfits, rfl, bound⟩

/-- Bits that follow each other within `T_RD` and stay below 26 are all held, in arrival order (R82, R200). -/
theorem Decoder.feed_holds {tRd : Time} (tSt : Time) {d : Decoder} {e : Time × Bool} {rest : List (Time × Bool)}
    {n v : Nat} (hcount : (d.countKept tRd e.1).toNat = n) (hvalue : (d.accKept tRd e.1).toNat = v) (hfits : v < 2 ^ n)
    (hshort : n + (e :: rest).length ≤ 25) (hgaps : gapsWithin tRd (e :: rest) = true) :
    (d.feed tRd tSt (e :: rest)).Holds (n + (e :: rest).length) (bitsAfter v ((e :: rest).map Prod.snd))
      ((e :: rest).getLast (List.cons_ne_nil e rest)).1 := by
  induction rest generalizing d e n v with
  | nil => exact d.shiftIn_holds tSt e.2 hcount hvalue hfits (Nat.le_of_succ_le_succ hshort)
  | cons e' rest ih =>
    simp only [List.length_cons] at hshort
    have first := d.shiftIn_holds tSt e.2 hcount hvalue hfits (by omega)
    have both : (decide (elapsed e'.1 e.1 ≤ tRd) && gapsWithin tRd (e' :: rest)) = true := hgaps
    rw [Bool.and_eq_true, decide_eq_true_eq, ← first.last] at both
    obtain ⟨gap, later⟩ := both
    obtain ⟨count, value⟩ := Decoder.kept_of_within gap
    have after := ih (by rw [count, first.count]) (by rw [value, first.value]) first.fits
      (by simp only [List.length_cons]; omega) later
    have length : n + 1 + (e' :: rest).length = n + (e :: e' :: rest).length := by simp only [List.length_cons]; omega
    rw [length] at after
    rw [Decoder.feed_cons]
    exact after

end Sys2Proof.Machine

namespace Sys2Proof
open Machine

/-- Settles O33: after the gap the count starts at 0, so at most 25 bits complete nothing, and uninterrupted ones are all
held. -/
theorem bitsAcrossTimeoutNeverJoin : Obligations.BitsAcrossTimeoutNeverJoin := by
  intro tRd tSt d before after first hgap hshort
  obtain ⟨count, value⟩ := Decoder.kept_of_gap hgap
  rw [Decoder.feed_append]
  obtain ⟨cred, tcred⟩ := Decoder.feed_short (rest := after) tSt (by rw [count]; simpa using hshort)
  refine ⟨cred, tcred, fun hgaps => ?_⟩
  have held := Decoder.feed_holds tSt (n := 0) (v := 0) (by rw [count]; rfl) (by rw [value]; rfl) (by decide)
    (by rwa [Nat.zero_add]) hgaps
  rw [Nat.zero_add] at held
  exact ⟨held.count, held.value⟩

/-- Settles O34, by induction on the bits: a promotion would need an age above `T_ST`. -/
theorem recentReadsAreDropped : Obligations.RecentReadsAreDropped := by
  intro tRd tSt d bits hrecent
  induction bits generalizing d with
  | nil => exact ⟨rfl, rfl⟩
  | cons e rest ih =>
    obtain ⟨cred, tcred⟩ | ⟨old, -⟩ := d.shiftIn_completed_cases tRd tSt e.1 e.2
    · obtain ⟨cred', tcred'⟩ := ih (d.shiftIn tRd tSt e.1 e.2)
        fun e' he' => tcred ▸ hrecent e' (List.mem_cons_of_mem e he')
      rw [Decoder.feed_cons, cred', tcred']
      exact ⟨cred, tcred⟩
    · exact absurd (of_decide_eq_true old) (hrecent e List.mem_cons_self)

/-- Settles O32: the first 25 bits are held and complete nothing, and the 26th promotes them with itself. -/
theorem completeReadYieldsBitsInArrivalOrder : Obligations.CompleteReadYieldsBitsInArrivalOrder := by
  intro tRd tSt d bits last hcount hacc hlength hgaps hage
  obtain _ | ⟨e, rest⟩ := bits
  · cases hlength
  have short : (e :: rest).length = 25 := by simpa using hlength
  obtain ⟨gaps, gap⟩ := gapsWithin_concat hgaps
  obtain ⟨count, value⟩ := Decoder.kept_of_idle (tRd := tRd) (now := e.1) hcount hacc
  obtain ⟨-, tcred⟩ := Decoder.feed_short (rest := rest) tSt (by rw [count, short]; decide)
  have held := Decoder.feed_holds tSt (n := 0) (v := 0) (by rw [count]; rfl) (by rw [value]; rfl) (by decide)
    (by rw [short]) gaps
  generalize hx : d.feed tRd tSt (e :: rest) = x at held tcred
  rw [short, Nat.zero_add] at held
  rw [← held.last] at gap
  obtain ⟨countKept, accKept⟩ := Decoder.kept_of_within gap
  have full : x.countKept tRd last.1 + 1 = 26 := by
    have full25 : x.bitcnt = 25 := BitVec.eq_of_toNat_eq held.count
    rw [countKept, full25]
    rfl
  have old : exceeds last.1 x.tcred tSt = true := by rw [tcred]; exact decide_eq_true hage
  have number : (x.accWith tRd last.1 last.2).toNat = bitsValue (((e :: rest) ++ [last]).map Prod.snd) := by
    rw [x.accWith_toNat last.2 (by decide) (by rw [accKept, held.value]) held.fits, List.map_append, bitsValue_eq]
    exact (bitsAfter_concat 0 _ last.2).symm
  rw [Decoder.feed_append, hx, Decoder.feed_cons, Decoder.feed_nil, x.shiftIn_promotes tRd tSt last.1 last.2 full old]
  exact ⟨number, rfl, rfl, rfl⟩

end Sys2Proof
end

section
/-! The multi-phase commands from their first phase to their last, with nothing else between the steps
(42_wiegand_decoder.md sections 4 and 5): what the phases together do to the registry, to the pull-ups and to the
decoder. -/

namespace Sys2Proof.Machine

/-! ## Reading the registry after its bodies -/

/-- Bit i of bank b stands for the valid pin p exactly when it is a pin's bit and its index is p (R14, R15). -/
theorem bank_bit_iff_pinAt {cfg : Config} {p : Pin} (hp : validPin cfg p = true) (b : Bank) (i : Nat) :
    (bankOf cfg p = b ∧ bitOf cfg p = i) ↔ (i < bankWidth cfg b ∧ pinAt cfg b i = p) := by
  constructor
  · rintro ⟨rfl, rfl⟩
    exact ⟨bitOf_lt_bankWidth cfg p hp, pinAt_bankOf_bitOf cfg p hp⟩
  · rintro ⟨hi, rfl⟩
    exact ⟨bankOf_pinAt cfg b i hi, bitOf_pinAt cfg b i hi⟩

/-- REG_DETACH_BODY of a valid pin, as writes (R178). -/
theorem State.detachBody_writes {s : State} {p : Pin} (hp : validPin s.cfg p = true) :
    s.detachBody p =
      (((s.setLvalid p false).setListener p 0).setMask (bankOf s.cfg p)
        (clearBit (s.maskAt (bankOf s.cfg p)) (bitOf s.cfg p))).setTrigEn (bankOf s.cfg p)
        (if clearBit (s.maskAt (bankOf s.cfg p)) (bitOf s.cfg p) = 0 then false else s.trigEnAt (bankOf s.cfg p)) :=
  s.detachBody_valid p hp

/-- REG_ATTACH_BODY of valid operands, as writes (R171). -/
theorem State.attachBody_writes {s : State} {p : Pin} {h : Handle} (hok : s.attachOk p h = true) :
    s.attachBody p h =
      (((s.setListener p h).setLvalid p true).setMask (bankOf s.cfg p)
        (setBit (s.maskAt (bankOf s.cfg p)) (bitOf s.cfg p))).setTrigEn (bankOf s.cfg p)
        (if (if s.lvalidAt p then clearBit (s.maskAt (bankOf s.cfg p)) (bitOf s.cfg p)
            else s.maskAt (bankOf s.cfg p)) = 0 then true
          else s.trigEnAt (bankOf s.cfg p)) :=
  s.attachBody_accepted p h hok

/-- Pin q exists and is p. -/
def State.isPin (s : State) (p q : Pin) : Bool := validPin s.cfg q && q == p

theorem State.isPin_of_valid {s : State} {p : Pin} (hp : validPin s.cfg p = true) (q : Pin) :
    s.isPin p q = decide (p = q) := by
  by_cases h : p = q
  · subst h
    simp [State.isPin, hp]
  · simp [State.isPin, h, Ne.symm h]

theorem State.isPin_of_invalid {s : State} {p : Pin} (hp : validPin s.cfg p = false) (q : Pin) :
    s.isPin p q = false := by
  by_cases h : q = p
  · subst h
    simp [State.isPin, hp]
  · simp [State.isPin, h]

/-- Of a valid pin, in banks and bits. -/
theorem State.isPin_pinAt {s : State} {p : Pin} (hp : validPin s.cfg p = true) (b : Bank) (i : Nat) :
    (decide (i < bankWidth s.cfg b) && s.isPin p (pinAt s.cfg b i)) =
      (decide (bankOf s.cfg p = b) && decide (bitOf s.cfg p = i)) := by
  rw [State.isPin_of_valid hp, ← Bool.decide_and, ← Bool.decide_and, decide_eq_decide, bank_bit_iff_pinAt hp,
    eq_comm (a := p)]

theorem State.detachBody_lvalidAt (s : State) (p q : Pin) :
    (s.detachBody p).lvalidAt q = (s.lvalidAt q && !s.isPin p q) := by
  cases hp : validPin s.cfg p with
  | false => simp [s.detachBody_invalid p hp, State.isPin_of_invalid hp]
  | true =>
    rw [State.detachBody_writes hp, State.isPin_of_valid hp]
    by_cases h : p = q <;> simp [h]

theorem State.detachBody_listenerAt (s : State) (p q : Pin) :
    (s.detachBody p).listenerAt q = if s.isPin p q then 0 else s.listenerAt q := by
  cases hp : validPin s.cfg p with
  | false => simp [s.detachBody_invalid p hp, State.isPin_of_invalid hp]
  | true =>
    rw [State.detachBody_writes hp, State.isPin_of_valid hp]
    simp

theorem State.detachBody_mask_bit (s : State) (p : Pin) (b : Bank) (i : Nat) :
    ((s.detachBody p).maskAt b).getLsbD i =
      ((s.maskAt b).getLsbD i && !(decide (i < bankWidth s.cfg b) && s.isPin p (pinAt s.cfg b i))) := by
  cases hp : validPin s.cfg p with
  | false => simp [s.detachBody_invalid p hp, State.isPin_of_invalid hp]
  | true =>
    have hi := bitOf_lt_eight s.cfg p hp
    rw [State.detachBody_writes hp, State.isPin_pinAt hp]
    by_cases hb : bankOf s.cfg p = b
    · subst hb
      simp [getLsbD_clearBit _ _ _ hi]
    · simp [hb]

theorem State.attachBody_lvalidAt {s : State} {h : Handle} (hh : validHandle s.cfg h = true) (p q : Pin) :
    (s.attachBody p h).lvalidAt q = (s.lvalidAt q || s.isPin p q) := by
  cases hp : validPin s.cfg p with
  | false => simp [s.attachBody_rejected p h (by rw [State.attachOk, hp, Bool.false_and]), State.isPin_of_invalid hp]
  | true =>
    rw [State.attachBody_writes (State.attachOk_eq_true hp hh), State.isPin_of_valid hp]
    by_cases h : p = q <;> simp [h]

theorem State.attachBody_listenerAt {s : State} {h : Handle} (hh : validHandle s.cfg h = true) (p q : Pin) :
    (s.attachBody p h).listenerAt q = if s.isPin p q then h else s.listenerAt q := by
  cases hp : validPin s.cfg p with
  | false => simp [s.attachBody_rejected p h (by rw [State.attachOk, hp, Bool.false_and]), State.isPin_of_invalid hp]
  | true =>
    rw [State.attachBody_writes (State.attachOk_eq_true hp hh), State.isPin_of_valid hp]
    simp

theorem State.attachBody_mask_bit {s : State} {h : Handle} (hh : validHandle s.cfg h = true) (p : Pin) (b : Bank)
    (i : Nat) :
    ((s.attachBody p h).maskAt b).getLsbD i =
      ((s.maskAt b).getLsbD i || (decide (i < bankWidth s.cfg b) && s.isPin p (pinAt s.cfg b i))) := by
  cases hp : validPin s.cfg p with
  | false => simp [s.attachBody_rejected p h (by rw [State.attachOk, hp, Bool.false_and]), State.isPin_of_invalid hp]
  | true =>
    have hi := bitOf_lt_eight s.cfg p hp
    rw [State.attachBody_writes (State.attachOk_eq_true hp hh), State.isPin_pinAt hp]
    by_cases hb : bankOf s.cfg p = b
    · subst hb
      simp [getLsbD_setBit _ _ _ hi]
    · simp [hb]

/-- REG_DETACH_BODY keeps INV2 (R34). -/
theorem State.detachBody_enabled {s : State} (p : Pin) (hen : EnabledIffActive s) :
    EnabledIffActive (s.detachBody p) := by
  cases hp : validPin s.cfg p with
  | false => rwa [s.detachBody_invalid p hp]
  | true =>
    intro b
    rw [State.detachBody_writes hp]
    by_cases hb : bankOf s.cfg p = b
    · by_cases hz : clearBit (s.maskAt b) (bitOf s.cfg p) = 0
      · simp [hb, hz]
      · have active : s.maskAt b ≠ 0 := fun h0 => hz (by rw [h0]; simp [clearBit])
        simpa [hb, hen b] using fun _ => active
    · simp [hb, hen b]

/-- So does REG_ATTACH_BODY. -/
theorem State.attachBody_enabled {s : State} (p : Pin) (h : Handle) (hen : EnabledIffActive s) :
    EnabledIffActive (s.attachBody p h) := by
  cases hok : s.attachOk p h with
  | false => rwa [s.attachBody_rejected p h hok]
  | true =>
    have hp : validPin s.cfg p = true := by
      rw [State.attachOk, Bool.and_eq_true] at hok
      exact hok.1
    intro b
    rw [State.attachBody_writes hok, trigEn_after_attach _ _ _ _ (hen (bankOf s.cfg p))]
    by_cases hb : bankOf s.cfg p = b
    · simpa [hb] using setBit_ne_zero (s.maskAt b) (bitOf s.cfg p) (bitOf_lt_eight s.cfg p hp)
    · simp [hb, hen b]

theorem State.pullUp_pullupAt (s : State) (p q : Pin) :
    (s.pullUp p).pullupAt q = (s.pullupAt q || s.isPin p q) := by
  cases hp : validPin s.cfg p with
  | false => simp [State.pullUp, hp, State.isPin_of_invalid hp]
  | true =>
    rw [State.pullUp, if_pos hp, State.isPin_of_valid hp]
    by_cases h : p = q <;> simp [h]

/-! ## The phases, whatever the sequencer holds -/

theorem State.detachBody_goto (s : State) (q : Seq) (p : Pin) (c : Command) (ph : Phase) :
    ((s.setSeq q).detachBody p).goto c ph = (s.detachBody p).goto c ph := by
  cases hp : validPin s.cfg p with
  | false =>
    rw [(s.setSeq q).detachBody_invalid p hp, s.detachBody_invalid p hp]
    rfl
  | true =>
    rw [State.detachBody_writes hp, State.detachBody_writes (s := s.setSeq q) hp]
    rfl

theorem State.attachBody_goto (s : State) (q : Seq) (p : Pin) (h : Handle) (c : Command) (ph : Phase) :
    ((s.setSeq q).attachBody p h).goto c ph = (s.attachBody p h).goto c ph := by
  cases hok : s.attachOk p h with
  | false =>
    rw [(s.setSeq q).attachBody_rejected p h hok, s.attachBody_rejected p h hok]
    rfl
  | true =>
    rw [State.attachBody_writes hok, State.attachBody_writes (s := s.setSeq q) hok]
    rfl

theorem State.pullUp_setSeq (s : State) (q : Seq) (p : Pin) : (s.setSeq q).pullUp p = (s.pullUp p).setSeq q :=
  (apply_ite (State.setSeq · q) (validPin s.cfg p = true) (s.setPullup p true) s).symm

theorem State.pullUp_goto (s : State) (q : Seq) (p p' : Pin) (c : Command) (ph : Phase) :
    (((s.setSeq q).pullUp p).pullUp p').goto c ph = ((s.pullUp p).pullUp p').goto c ph := by
  rw [State.pullUp_setSeq, State.pullUp_setSeq]
  rfl

theorem State.isPin_or (s : State) (p p' q : Pin) :
    (validPin s.cfg q && (q == p || q == p')) = (s.isPin p q || s.isPin p' q) := by
  rw [State.isPin, State.isPin, Bool.and_or_distrib_left]

theorem State.isPin_congr {s t : State} (h : t.cfg = s.cfg) (p q : Pin) : t.isPin p q = s.isPin p q := by
  rw [State.isPin, h, State.isPin]

/-! ## Both pins of a decoder detached -/

/-- What DD1 to DD3 and D1 to D3 do, the sequencer and the response aside: REG_DETACH_BODY of both pins, and the decoder
unbound. -/
def State.detachDecoder (s : State) (k : DecIdx) : State :=
  ((s.detachBody (s.decAt k).p0).detachBody (s.decAt k).p1).unbindDecoder k

section
variable (s : State) (k : DecIdx)

/-- Pin q exists and is one of decoder k's two. -/
def State.isPinOf (q : Pin) : Bool := validPin s.cfg q && (q == (s.decAt k).p0 || q == (s.decAt k).p1)

theorem State.detachDecoder_frame : CommandFrame (some k) s (s.detachDecoder k) :=
  ((CommandFrame.detachBody s _).trans (CommandFrame.detachBody _ _)).trans (CommandFrame.unbindDecoder _ k)

theorem State.detachDecoder_pullup : (s.detachDecoder k).pullup = s.pullup :=
  (State.detachBody_pullup _ _).trans (s.detachBody_pullup _)

theorem State.detachDecoder_resp : (s.detachDecoder k).resp = s.resp :=
  (State.detachBody_resp _ _).trans (s.detachBody_resp _)

theorem State.detachDecoder_dec :
    (s.detachDecoder k).dec = s.dec.set k.toNat
      { s.decAt k with attached := false, p0 := 0, p1 := 0, bitcnt := 0, acc := 0, cred := 0 } := by
  have untouched : ((s.detachBody (s.decAt k).p0).detachBody (s.decAt k).p1).dec = s.dec :=
    (State.detachBody_dec _ _).trans (s.detachBody_dec _)
  rw [State.detachDecoder, State.unbindDecoder, State.setDec_dec, State.decAt_congr untouched, untouched]
  rfl

theorem State.detachDecoder_lvalidAt (q : Pin) :
    (s.detachDecoder k).lvalidAt q = (s.lvalidAt q && !s.isPinOf k q) := by
  have both : (s.detachDecoder k).lvalidAt q = _ :=
    State.detachBody_lvalidAt (s.detachBody (s.decAt k).p0) (s.decAt k).p1 q
  rw [both, s.detachBody_lvalidAt, State.isPin_congr (s.detachBody_cfg _), State.isPinOf, State.isPin_or, Bool.not_or,
    Bool.and_assoc]

theorem State.detachDecoder_listenerAt (q : Pin) :
    (s.detachDecoder k).listenerAt q = if s.isPinOf k q then 0 else s.listenerAt q := by
  have both : (s.detachDecoder k).listenerAt q = _ :=
    State.detachBody_listenerAt (s.detachBody (s.decAt k).p0) (s.decAt k).p1 q
  rw [both, s.detachBody_listenerAt, State.isPin_congr (s.detachBody_cfg _), State.isPinOf, State.isPin_or]
  cases s.isPin (s.decAt k).p0 q <;> simp

theorem State.detachDecoder_mask_bit (b : Bank) (i : Nat) :
    ((s.detachDecoder k).maskAt b).getLsbD i =
      ((s.maskAt b).getLsbD i && !(decide (i < bankWidth s.cfg b) && s.isPinOf k (pinAt s.cfg b i))) := by
  have both : ((s.detachDecoder k).maskAt b).getLsbD i = _ :=
    State.detachBody_mask_bit (s.detachBody (s.decAt k).p0) (s.decAt k).p1 b i
  rw [both, s.detachBody_mask_bit, s.detachBody_cfg, State.isPin_congr (s.detachBody_cfg _), State.isPinOf,
    State.isPin_or, Bool.and_or_distrib_left, Bool.not_or, Bool.and_assoc]

variable {s}

theorem State.detachDecoder_enabled (hen : EnabledIffActive s) : EnabledIffActive (s.detachDecoder k) :=
  State.detachBody_enabled _ (State.detachBody_enabled _ hen)

end

/-! ## DEC.DETACH and the implicit detach, phase by phase -/

section
variable {s : State} {k : DecIdx} {pb pa : Pin} {c : Command}

theorem exec_dd1 (own : encode (.decAttach k pb pa) = .command c.cmd) (hphase : c.phase = .dd1) :
    exec (.decAttach k pb pa) (s.setSeq (.busy c)) =
      .next ((s.detachBody (s.decAt k).p0).setSeq (.busy { c with phase := .dd2 })) := by
  rw [exec_decAttach_own rfl own, decAttachNext, hphase]
  exact congrArg Host.Outcome.next (s.detachBody_goto (.busy c) (s.decAt k).p0 c .dd2)

theorem exec_dd2 (own : encode (.decAttach k pb pa) = .command c.cmd) (hphase : c.phase = .dd2) :
    exec (.decAttach k pb pa) (s.setSeq (.busy c)) =
      .next ((s.detachBody (s.decAt k).p1).setSeq (.busy { c with phase := .dd3 })) := by
  rw [exec_decAttach_own rfl own, decAttachNext, hphase]
  exact congrArg Host.Outcome.next (s.detachBody_goto (.busy c) (s.decAt k).p1 c .dd3)

theorem exec_dd3 (own : encode (.decAttach k pb pa) = .command c.cmd) (hphase : c.phase = .dd3) :
    exec (.decAttach k pb pa) (s.setSeq (.busy c)) =
      .next ((s.unbindDecoder k).setSeq (.busy { c with phase := .a1 })) := by
  rw [exec_decAttach_own rfl own, decAttachNext, hphase]
  rfl

theorem exec_d1 (own : encode (.decDetach k) = .command c.cmd) (hphase : c.phase = .d1) :
    exec (.decDetach k) (s.setSeq (.busy c)) =
      .next ((s.detachBody (s.decAt k).p0).setSeq (.busy { c with phase := .d2 })) := by
  rw [exec_decDetach_own rfl own, decDetachNext, hphase]
  exact congrArg Host.Outcome.next (s.detachBody_goto (.busy c) (s.decAt k).p0 c .d2)

theorem exec_d2 (own : encode (.decDetach k) = .command c.cmd) (hphase : c.phase = .d2) :
    exec (.decDetach k) (s.setSeq (.busy c)) =
      .next ((s.detachBody (s.decAt k).p1).setSeq (.busy { c with phase := .d3 })) := by
  rw [exec_decDetach_own rfl own, decDetachNext, hphase]
  exact congrArg Host.Outcome.next (s.detachBody_goto (.busy c) (s.decAt k).p1 c .d3)

/-- Phase D3 answers OK (R218). -/
theorem exec_d3 (own : encode (.decDetach k) = .command c.cmd) (hphase : c.phase = .d3) :
    exec (.decDetach k) (s.setSeq (.busy c)) =
      .next { s.unbindDecoder k with seq := .idle, resp := s.resp ++ [0x00000000] } := by
  rw [exec_decDetach_own rfl own, decDetachNext_d3 hphase]
  rfl

/-- The pins that a decoder is detached from are its own, whatever the first detach did (R208, R216). -/
theorem State.detachBody_decAt (s : State) (p : Pin) (k : DecIdx) : (s.detachBody p).decAt k = s.decAt k :=
  State.decAt_congr (s.detachBody_dec p) k

/-- DD1 to DD3 with nothing between them. -/
theorem execTimes_implicit_detach (own : encode (.decAttach k pb pa) = .command c.cmd) (hphase : c.phase = .dd1) :
    execTimes 3 (.decAttach k pb pa) (s.setSeq (.busy c)) =
      .next ((s.detachDecoder k).setSeq (.busy { c with phase := .a1 })) := by
  have dd2 := exec_dd2 (s := s.detachBody (s.decAt k).p0) (c := { c with phase := .dd2 }) own rfl
  rw [State.detachBody_decAt] at dd2
  have dd3 := exec_dd3 (s := (s.detachBody (s.decAt k).p0).detachBody (s.decAt k).p1) (c := { c with phase := .dd3 }) own
    rfl
  rw [execTimes_succ 2 (exec_dd1 own hphase), execTimes_succ 1 dd2, execTimes_succ 0 dd3]
  rfl

/-- D1 to D3 with nothing between them. -/
theorem execTimes_detach (own : encode (.decDetach k) = .command c.cmd) (hphase : c.phase = .d1) :
    execTimes 3 (.decDetach k) (s.setSeq (.busy c)) =
      .next { s.detachDecoder k with seq := .idle, resp := s.resp ++ [0x00000000] } := by
  have d2 := exec_d2 (s := s.detachBody (s.decAt k).p0) (c := { c with phase := .d2 }) own rfl
  rw [State.detachBody_decAt] at d2
  have d3 := exec_d3 (s := (s.detachBody (s.decAt k).p0).detachBody (s.decAt k).p1) (c := { c with phase := .d3 }) own rfl
  rw [State.detachBody_resp, State.detachBody_resp] at d3
  rw [execTimes_succ 2 (exec_d1 own hphase), execTimes_succ 1 d2, execTimes_succ 0 d3]
  rfl

/-! ## DEC.ATTACH from phase A1, phase by phase -/

theorem exec_a1 (own : encode (.decAttach k pb pa) = .command c.cmd) (hphase : c.phase = .a1) :
    exec (.decAttach k pb pa) (s.setSeq (.busy c)) =
      .next ((s.bindDecoder k pa pb).setSeq (.busy { c with phase := .a2 })) := by
  rw [exec_decAttach_own rfl own, decAttachNext, hphase]
  rfl

theorem exec_a2 (own : encode (.decAttach k pb pa) = .command c.cmd) (hphase : c.phase = .a2) :
    exec (.decAttach k pb pa) (s.setSeq (.busy c)) =
      .next ((s.attachBody pa (decoderHandle k)).setSeq
        (.busy { c with phase := .a3, ok0 := s.attachOk pa (decoderHandle k) })) := by
  rw [exec_decAttach_own rfl own, decAttachNext, hphase]
  exact congrArg Host.Outcome.next
    (s.attachBody_goto (.busy c) pa (decoderHandle k) { c with ok0 := s.attachOk pa (decoderHandle k) } .a3)

theorem exec_a3 (own : encode (.decAttach k pb pa) = .command c.cmd) (hphase : c.phase = .a3) :
    exec (.decAttach k pb pa) (s.setSeq (.busy c)) =
      .next ((s.attachBody pb (decoderHandle k)).setSeq
        (.busy { c with phase := .a4, ok1 := s.attachOk pb (decoderHandle k) })) := by
  rw [exec_decAttach_own rfl own, decAttachNext, hphase]
  exact congrArg Host.Outcome.next
    (s.attachBody_goto (.busy c) pb (decoderHandle k) { c with ok1 := s.attachOk pb (decoderHandle k) } .a4)

theorem exec_a4 (own : encode (.decAttach k pb pa) = .command c.cmd) (hphase : c.phase = .a4) :
    exec (.decAttach k pb pa) (s.setSeq (.busy c)) =
      .next (((s.pullUp pa).pullUp pb).setSeq (.busy { c with phase := .a5, t0 := s.time })) := by
  rw [exec_decAttach_own rfl own, decAttachNext, hphase]
  exact congrArg Host.Outcome.next (s.pullUp_goto (.busy c) pa pb { c with t0 := s.time } .a5)

/-- Phase A5, once `SETTLE_MS` has passed (R212). -/
theorem exec_a5 (own : encode (.decAttach k pb pa) = .command c.cmd) (hphase : c.phase = .a5)
    (hsettled : s.cfg.settleMs ≤ s.time - c.t0) :
    exec (.decAttach k pb pa) (s.setSeq (.busy c)) = .next (s.setSeq (.busy { c with phase := .a6 })) := by
  have phase := Sys2Proof.settlePauseWaitsForTime (s.setSeq (.busy c)) k pa pb c rfl hphase own
  rw [phase]
  exact if_pos hsettled

/-- Phase A6 answers with the two registration results (R119). -/
theorem exec_a6 (own : encode (.decAttach k pb pa) = .command c.cmd) (hphase : c.phase = .a6) :
    exec (.decAttach k pb pa) (s.setSeq (.busy c)) =
      .next { s.resetDecoder k with
        seq := .idle
        resp := s.resp ++ [0#30 ++ BitVec.ofBool c.ok1 ++ BitVec.ofBool c.ok0] } :=
  Sys2Proof.attachLastPhaseResets (s.setSeq (.busy c)) k pa pb c rfl hphase own

end

/-! ## Both pins of a decoder attached -/

theorem State.pullUp_lvalidAt (s : State) (p q : Pin) : (s.pullUp p).lvalidAt q = s.lvalidAt q := by
  unfold State.pullUp
  split <;> rfl

theorem State.pullUp_listenerAt (s : State) (p q : Pin) : (s.pullUp p).listenerAt q = s.listenerAt q := by
  unfold State.pullUp
  split <;> rfl

theorem State.pullUp_maskAt (s : State) (p : Pin) (b : Bank) : (s.pullUp p).maskAt b = s.maskAt b := by
  unfold State.pullUp
  split <;> rfl

theorem State.pullUp_trigEnAt (s : State) (p : Pin) (b : Bank) : (s.pullUp p).trigEnAt b = s.trigEnAt b := by
  unfold State.pullUp
  split <;> rfl

theorem State.pullUp_cfg (s : State) (p : Pin) : (s.pullUp p).cfg = s.cfg := by
  unfold State.pullUp
  split <;> rfl

/-- What A1 to A3 do, the sequencer aside: the decoder bound, and REG_ATTACH_BODY of both pins. -/
def State.registerDecoder (s : State) (k : DecIdx) (pb pa : Pin) : State :=
  ((s.bindDecoder k pa pb).attachBody pa (decoderHandle k)).attachBody pb (decoderHandle k)

/-- What A1 to A4 do: then both pins are pulled up (R208). -/
def State.attachDecoder (s : State) (k : DecIdx) (pb pa : Pin) : State :=
  ((s.registerDecoder k pb pa).pullUp pa).pullUp pb

section
variable (s : State) (k : DecIdx) (pb pa : Pin)

/-- Pin q exists and is one of the two that DEC.ATTACH names. -/
def State.isEither (q : Pin) : Bool := validPin s.cfg q && (q == pa || q == pb)

theorem State.attachDecoder_frame : CommandFrame (some k) s (s.attachDecoder k pb pa) :=
  ((((CommandFrame.bindDecoder s k pa pb).trans (.attachBody _ pa _)).trans (.attachBody _ pb _)).pullUp pa).pullUp pb

theorem State.attachDecoder_resp : (s.attachDecoder k pb pa).resp = s.resp := by
  rw [State.attachDecoder, State.pullUp_resp, State.pullUp_resp, State.registerDecoder, State.attachBody_resp,
    State.attachBody_resp]
  rfl

theorem State.attachDecoder_dec : (s.attachDecoder k pb pa).dec = (s.bindDecoder k pa pb).dec := by
  rw [State.attachDecoder, State.pullUp_dec, State.pullUp_dec, State.registerDecoder, State.attachBody_dec,
    State.attachBody_dec]

/-- A6 on a decoder that A1 bound (R208, R211). -/
theorem State.attachDecoder_reset_dec :
    ((s.attachDecoder k pb pa).resetDecoder k).dec = s.dec.set k.toNat
      { s.decAt k with attached := true, p0 := pa, p1 := pb, bitcnt := 0, acc := 0, cred := 0 } := by
  have bound : (s.bindDecoder k pa pb).decAt k = { s.decAt k with attached := true, p0 := pa, p1 := pb } := by
    simp [State.bindDecoder]
  rw [State.resetDecoder, State.setDec_dec, State.decAt_congr (s.attachDecoder_dec k pb pa), State.attachDecoder_dec,
    bound, State.bindDecoder, State.setDec_dec, Vector.set_set]
  rfl

theorem State.attachDecoder_pullupAt (q : Pin) :
    (s.attachDecoder k pb pa).pullupAt q = (s.pullupAt q || s.isEither pb pa q) := by
  have cfg : (s.registerDecoder k pb pa).cfg = s.cfg := (State.attachBody_cfg _ _ _).trans (State.attachBody_cfg _ _ _)
  have kept : (s.registerDecoder k pb pa).pullup = s.pullup :=
    (State.attachBody_pullup _ _ _).trans (State.attachBody_pullup _ _ _)
  rw [State.attachDecoder, State.pullUp_pullupAt, State.pullUp_pullupAt, State.isPin_congr (State.pullUp_cfg _ _),
    State.isPin_congr cfg, State.isPin_congr cfg, State.pullupAt_congr kept, State.isEither, State.isPin_or,
    Bool.or_assoc]

variable {s k}
variable (hk : validDecoder s.cfg k = true)
include hk

/-- `HDEC(k)` stays a valid handle from phase to phase. -/
theorem State.validHandle_in_attach :
    validHandle (s.bindDecoder k pa pb).cfg (decoderHandle k) = true ∧
      validHandle ((s.bindDecoder k pa pb).attachBody pa (decoderHandle k)).cfg (decoderHandle k) = true := by
  rw [State.attachBody_cfg]
  exact ⟨(validHandle_decoderHandle _ k).trans hk, (validHandle_decoderHandle _ k).trans hk⟩

theorem State.attachDecoder_lvalidAt (q : Pin) :
    (s.attachDecoder k pb pa).lvalidAt q = (s.lvalidAt q || s.isEither pb pa q) := by
  obtain ⟨first, second⟩ := State.validHandle_in_attach pb pa hk
  rw [State.attachDecoder, State.pullUp_lvalidAt, State.pullUp_lvalidAt, State.registerDecoder,
    State.attachBody_lvalidAt second, State.attachBody_lvalidAt first, State.isPin_congr (State.attachBody_cfg _ _ _),
    State.isEither, State.isPin_or, Bool.or_assoc]
  rfl

theorem State.attachDecoder_listenerAt (q : Pin) :
    (s.attachDecoder k pb pa).listenerAt q = if s.isEither pb pa q then decoderHandle k else s.listenerAt q := by
  obtain ⟨first, second⟩ := State.validHandle_in_attach pb pa hk
  have sameBind : (s.bindDecoder k pa pb).isPin = s.isPin := rfl
  rw [State.attachDecoder, State.pullUp_listenerAt, State.pullUp_listenerAt, State.registerDecoder,
    State.attachBody_listenerAt second, State.attachBody_listenerAt first,
    State.isPin_congr (State.attachBody_cfg _ _ _), State.isEither, State.isPin_or, sameBind]
  cases s.isPin pa q <;> simp [State.bindDecoder]

theorem State.attachDecoder_mask_bit (b : Bank) (i : Nat) :
    ((s.attachDecoder k pb pa).maskAt b).getLsbD i =
      ((s.maskAt b).getLsbD i || (decide (i < bankWidth s.cfg b) && s.isEither pb pa (pinAt s.cfg b i))) := by
  obtain ⟨first, second⟩ := State.validHandle_in_attach pb pa hk
  rw [State.attachDecoder, State.pullUp_maskAt, State.pullUp_maskAt, State.registerDecoder,
    State.attachBody_mask_bit second, State.attachBody_mask_bit first, State.attachBody_cfg,
    State.isPin_congr (State.attachBody_cfg _ _ _), State.isEither, State.isPin_or, Bool.and_or_distrib_left,
    Bool.or_assoc]
  rfl

omit hk

theorem State.attachDecoder_enabled (hen : EnabledIffActive s) : EnabledIffActive (s.attachDecoder k pb pa) := by
  have bound : EnabledIffActive (s.bindDecoder k pa pb) := hen
  have registered : EnabledIffActive (s.registerDecoder k pb pa) :=
    State.attachBody_enabled pb _ (State.attachBody_enabled pa _ bound)
  intro b
  rw [State.attachDecoder, State.pullUp_trigEnAt, State.pullUp_trigEnAt, State.pullUp_maskAt, State.pullUp_maskAt]
  exact registered b

end

/-- Where decoder k exists, a registration of its handle succeeds exactly when the pin does (R171). -/
theorem State.attachOk_decoderHandle {s : State} {k : DecIdx} (hk : validDecoder s.cfg k = true) (p : Pin) :
    s.attachOk p (decoderHandle k) = validPin s.cfg p := by
  rw [State.attachOk, validHandle_decoderHandle, hk, Bool.and_true]

/-- A1 to A4 with nothing between them. -/
theorem execTimes_attach {s : State} {k : DecIdx} {pb pa : Pin} {c : Command} (hk : validDecoder s.cfg k = true)
    (own : encode (.decAttach k pb pa) = .command c.cmd) (hphase : c.phase = .a1) :
    execTimes 4 (.decAttach k pb pa) (s.setSeq (.busy c)) =
      .next ((s.attachDecoder k pb pa).setSeq
        (.busy { c with phase := .a5, t0 := s.time, ok0 := validPin s.cfg pa, ok1 := validPin s.cfg pb })) := by
  have ok0 : (s.bindDecoder k pa pb).attachOk pa (decoderHandle k) = validPin s.cfg pa :=
    State.attachOk_decoderHandle (s := s.bindDecoder k pa pb) hk pa
  have cfg : ((s.bindDecoder k pa pb).attachBody pa (decoderHandle k)).cfg = s.cfg := State.attachBody_cfg _ _ _
  have ok1 : ((s.bindDecoder k pa pb).attachBody pa (decoderHandle k)).attachOk pb (decoderHandle k) =
      validPin s.cfg pb := by
    rw [State.attachOk_decoderHandle (by rw [cfg, hk]), cfg]
  have a2 := exec_a2 (s := s.bindDecoder k pa pb) (c := { c with phase := .a2 }) own rfl
  have a3 := exec_a3 (s := (s.bindDecoder k pa pb).attachBody pa (decoderHandle k))
    (c := { c with phase := .a3, ok0 := validPin s.cfg pa }) own rfl
  have a4 := exec_a4 (s := ((s.bindDecoder k pa pb).attachBody pa (decoderHandle k)).attachBody pb (decoderHandle k))
    (c := { c with phase := .a4, ok0 := validPin s.cfg pa, ok1 := validPin s.cfg pb }) own rfl
  rw [ok0] at a2
  rw [ok1] at a3
  rw [State.attachBody_time, State.attachBody_time] at a4
  rw [execTimes_succ 3 (exec_a1 own hphase), execTimes_succ 2 a2, execTimes_succ 1 a3, execTimes_succ 0 a4]
  rfl

/-- A5 and A6 with nothing between them, once `SETTLE_MS` has passed. -/
theorem execTimes_settle {s : State} {k : DecIdx} {pb pa : Pin} {c : Command}
    (own : encode (.decAttach k pb pa) = .command c.cmd) (hphase : c.phase = .a5)
    (hsettled : s.cfg.settleMs ≤ s.time - c.t0) :
    execTimes 2 (.decAttach k pb pa) (s.setSeq (.busy c)) =
      .next { s.resetDecoder k with
        seq := .idle
        resp := s.resp ++ [0#30 ++ BitVec.ofBool c.ok1 ++ BitVec.ofBool c.ok0] } := by
  have a6 := exec_a6 (s := s) (c := { c with phase := .a6 }) own rfl
  rw [execTimes_succ 1 (exec_a5 own hphase hsettled), execTimes_succ 0 a6, execTimes_zero]

end Sys2Proof.Machine

namespace Sys2Proof
open Machine

/-- Settles O42: D0, then D1 to D3. -/
theorem decDetachCompletes : Obligations.DecDetachCompletes := by
  intro s k hidle hk hattached old
  obtain ⟨w, own, first⟩ := decDetachFirst_existing hk
  have accepted := (exec_decDetach_idle s k hidle).trans (congrArg Host.Outcome.next first)
  have phase : (if (s.decAt k).attached then Phase.d1 else Phase.d3) = .d1 := by rw [hattached]; rfl
  have run := (execTimes_succ 3 accepted).trans (execTimes_detach own phase)
  have frame := s.detachDecoder_frame k
  have dec := s.detachDecoder_dec k
  have lvalid := s.detachDecoder_lvalidAt k
  have listener := s.detachDecoder_listenerAt k
  have mask := s.detachDecoder_mask_bit k
  have enabled := State.detachDecoder_enabled (s := s) k
  have pullup := s.detachDecoder_pullup k
  generalize s.detachDecoder k = r at *
  exact ⟨⟨_, accepted, rfl⟩, _, run, rfl, rfl, dec, lvalid, listener, mask, enabled, frame.cfg, frame.pinIn, frame.time,
    frame.script, frame.prev, pullup, frame.evt, frame.assertFail⟩

/-- Settles O40: A1 to A4, and A5 and A6 once the pause is over; the time moves in between. -/
theorem decAttachCompletes : Obligations.DecAttachCompletes := by
  intro s k pa pb c hbusy hphase own hk _
  have exists_k : validDecoder s.cfg k = true := (validDecoder_iff s.cfg k).2 hk
  have inSeq : s = s.setSeq (.busy c) := by rw [← hbusy]; rfl
  have firstFour := execTimes_attach (s := s) exists_k own hphase
  rw [← inSeq] at firstFour
  have frame := s.attachDecoder_frame k pb pa
  have resp := s.attachDecoder_resp k pb pa
  have dec := s.attachDecoder_reset_dec k pb pa
  have lvalid := State.attachDecoder_lvalidAt pb pa exists_k
  have listener := State.attachDecoder_listenerAt pb pa exists_k
  have pullup := s.attachDecoder_pullupAt k pb pa
  have mask := State.attachDecoder_mask_bit pb pa exists_k
  have enabled := State.attachDecoder_enabled (s := s) (k := k) pb pa
  generalize s.attachDecoder k pb pa = r at *
  refine ⟨_, firstFour, fun now hsettled => ?_⟩
  have settled : r.cfg.settleMs ≤ now - s.time := by rw [frame.cfg]; exact hsettled
  refine ⟨_, execTimes_settle (s := r.setTime now) own rfl settled, rfl, ?_, dec, lvalid, listener, pullup, mask,
    enabled, frame.cfg, frame.pinIn, rfl, frame.script, frame.prev, frame.evt, frame.assertFail⟩
  exact congrArg (· ++ _) resp

/-- Settles O39: A0, then DD1 to DD3. -/
theorem reattachDetachesFirst : Obligations.ReattachDetachesFirst := by
  intro s k pa pb hidle hk hattached old
  obtain ⟨w, own⟩ : ∃ w, encode (.decAttach k pb pa) = .command w := ⟨_, rfl⟩
  have accepted := (exec_decAttach_idle s k pb pa hidle).trans
    (congrArg Host.Outcome.next (decAttachFirst_existing hk own))
  have phase : (if (s.decAt k).attached then Phase.dd1 else Phase.a1) = .dd1 := by rw [hattached]; rfl
  have run := (execTimes_succ 3 accepted).trans (execTimes_implicit_detach own phase)
  have frame := s.detachDecoder_frame k
  have dec := s.detachDecoder_dec k
  have lvalid := s.detachDecoder_lvalidAt k
  have listener := s.detachDecoder_listenerAt k
  have mask := s.detachDecoder_mask_bit k
  have enabled := State.detachDecoder_enabled (s := s) k
  have pullup := s.detachDecoder_pullup k
  have resp := s.detachDecoder_resp k
  generalize s.detachDecoder k = r at *
  exact ⟨_, run, ⟨_, rfl, rfl, own⟩, dec, lvalid, listener, mask, enabled, frame.cfg, frame.pinIn, frame.time,
    frame.script, frame.prev, pullup, resp, frame.evt, frame.assertFail⟩

end Sys2Proof
end
